-- ==== Sys2Proof/Word.lean ====
section
/-! DEFINITION. The words of the block: bytes and 32-bit wire words (00_scope R18). -/

namespace Sys2Proof

/-- A byte, bit 7 its most significant bit (00_scope R18). -/
abbrev Byte := BitVec 8

/-- A 32-bit word, bit 31 its most significant bit (00_scope R18). -/
abbrev Word := BitVec 32

/-- The 5-bit brightness level (00_scope R11, glossary). -/
abbrev BrightLevel := BitVec 5

end Sys2Proof
end

