-- ==== Sys2Proof/Config.lean ====
section
/-! DEFINITION. What an implementation fixes (00_scope R7 to R17), the values of the brightness format, and the two
free values of the model, which have no body. -/

namespace Sys2Proof

/-- BFMT (00_scope R13): the floating-point format of the pixel brightness. OPEN in the spec: both are modelled. -/
inductive BFmt where
  | binary32
  | binary64
  deriving DecidableEq, Repr

/-- A value of the brightness format, as its bit pattern (10_state R21). Any value may be stored (40_pixel_model R100). -/
inductive BVal where
  | b32 (bits : BitVec 32)
  | b64 (bits : BitVec 64)
  deriving DecidableEq, Repr

/-- The format a brightness value belongs to. -/
def BVal.fmt : BVal → BFmt
  | .b32 _ => .binary32
  | .b64 _ => .binary64

/-- The configuration (00_scope R7 to R13, R17): fixed at construction, read-only afterwards (10_state R31). The source's
numeric literals are fields with the source's values as defaults (R17; log entry 23): a model with other values is this one
under another configuration. -/
structure Config where
  /-- CLK_LINE (00_scope R12). No rule depends on it. -/
  clkLine : Nat
  /-- DATA_LINE (00_scope R12). No rule depends on it. -/
  dataLine : Nat
  /-- BFMT (00_scope R13). -/
  bfmt : BFmt
  /-- D, the inter-edge delay, "a duration D >= 0" (00_scope R10). DESIGN CHOICE, safe (log entry 26): the spec gives the
  duration no unit and no granularity; here it is a natural number of a unit that no rule reads. -/
  delay : Nat := 0
  /-- N_PIXELS (00_scope R7). -/
  nPixels : Nat := 8
  /-- START_PULSES (00_scope R8). -/
  startPulses : Nat := 32
  /-- END_PULSES (00_scope R9). -/
  endPulses : Nat := 36
  /-- The brightness scale factor (00_scope R11). -/
  brightnessScale : Nat := 31
  /-- The brightness framing marker in the brightness byte (00_scope R11, 30_encoding R72). -/
  brightnessMarker : Byte := 0b11100000
  /-- The mask of the level, which is 5 bits wide (00_scope R11, R17, 40_pixel_model R102). -/
  levelMask : Byte := 0b00011111
  deriving DecidableEq, Repr

/-- The literals are the source's (00_scope R7 to R9, R11, R17), but for D, which a construction may choose (R10). A variant
with another pixel count is outside the spec (70_reset_and_hazards R238). -/
structure Config.SourceLiterals (cfg : Config) : Prop where
  nPixels : cfg.nPixels = 8
  startPulses : cfg.startPulses = 32
  endPulses : cfg.endPulses = 36
  brightnessScale : cfg.brightnessScale = 31
  brightnessMarker : cfg.brightnessMarker = 0b11100000
  levelMask : cfg.levelMask = 0b00011111

/-- INDEX_BITS (00_scope R15): the width of SET's index operand on the binary port. -/
abbrev Config.indexBits : Nat := 32

/-- The parameters State.reset is built with. D and the other literals are the source's (00_scope R10, R17).
DESIGN CHOICE, unsafe: the two line identifiers (log entry 5) and binary32 (log entry 4) are OPEN in the spec. -/
def Config.default : Config :=
  { clkLine := 0, dataLine := 1, bfmt := .binary32 }

/-- FREE VALUE, safe (log entry 6): qOOR, the level of a brightness that 40_pixel_model R102 and R103 do not settle
(00_scope R14, R104). It has no body that a proof can see. -/
opaque Config.qOOR : BVal → BrightLevel

/-- FREE VALUE, safe (log entry 2): the line environment's answer (ok is true) to the attempt of that number, under no law
(00_scope R16, 42_transmitter R160). It has no body that a proof can see. -/
opaque Config.lineOracle : Nat → Bool

end Sys2Proof
end

