-- ==== Sys2Proof/Syntax.lean ====
section
/-! DEFINITION. The abstract syntax: pixels, wire words, line operations, and Instr with one constructor per row of
spec/opcode_table.json. -/

namespace Sys2Proof

/-- A Pixel (10_state R21). -/
structure Pixel where
  red : Byte
  green : Byte
  blue : Byte
  brightness : BVal
  deriving DecidableEq, Repr

/-- A Wire Word: the four bytes of an LED frame, in the order they are sent (20_memory R56, 40_pixel_model R105). -/
structure WireWord where
  brightness : Byte
  blue : Byte
  green : Byte
  red : Byte
  deriving DecidableEq, Repr

/-- The two output lines (42_transmitter R160). -/
inductive Line where
  | clock
  | data
  deriving DecidableEq, Repr

/-- One line operation of a display sequence (42_transmitter R160, R161): LineWrite(line, v), v true for 1, or Wait(d), whose
duration is a natural number of no stated unit, as D is (log entry 26). -/
inductive LineOp where
  | write (line : Line) (v : Bool)
  | wait (d : Nat)
  deriving DecidableEq, Repr

/-- The instructions: one constructor per row of spec/opcode_table.json. The first six are the commands of 30_encoding R78,
the seventh a reserved opcode of the binary port (R81), the next three the wire frames (R71, R73, R74), the last three the
line operations (R83, 42_transmitter R160, R161). -/
inductive Instr where
  /-- SET(index, pixel), 41_pixel_buffer R131. -/
  | set (index : Nat) (pixel : Pixel)
  /-- CLEAR_ALL, 41_pixel_buffer R133. -/
  | clearAll
  /-- DISPLAY, 42_transmitter R169. -/
  | display
  /-- SIZE, 41_pixel_buffer R130. -/
  | size
  /-- SNAPSHOT, 41_pixel_buffer R134. -/
  | snapshot
  /-- ENCODE(pixel), 40_pixel_model R107. -/
  | encode (pixel : Pixel)
  /-- RESERVED_CMD: a reserved opcode, 30_encoding R81. -/
  | reservedCmd (opcode : Byte)
  /-- LED_FRAME: one LED frame on the wire, 30_encoding R71. -/
  | ledFrame (level : BrightLevel) (blue green red : Byte)
  /-- START_FRAME, 42_transmitter R163. -/
  | startFrame
  /-- END_FRAME, 42_transmitter R167. -/
  | endFrame
  /-- SETDATA v: LineWrite(DATA, v), 42_transmitter R160. -/
  | setData (v : Bool)
  /-- SETCLK v: LineWrite(CLOCK, v), 42_transmitter R160. -/
  | setClk (v : Bool)
  /-- WAIT d, 42_transmitter R161. -/
  | wait (d : Nat)
  deriving DecidableEq, Repr

end Sys2Proof
end

