-- ==== Sys2Proof/WellFormed.lean ====
section
/-! DEFINITION. Which instructions the encodings can spell under a configuration, and which are commands of the port or of
the abstract record. -/

namespace Sys2Proof

/-- A pixel whose brightness is a value of BFMT (10_state R21). -/
def Pixel.wf (fmt : BFmt) (p : Pixel) : Bool :=
  decide (p.brightness.fmt = fmt)

/-- A reserved opcode: 0x00 and 0x07 to 0xFF (30_encoding R81). -/
def reservedOpcode (opcode : Byte) : Bool :=
  decide (opcode = 0x00#8) || decide (7 ≤ opcode.toNat)

/-- The brightness byte of a level: 0b11100000 | (level & 0b00011111) (30_encoding R72, 40_pixel_model R105). -/
def brightnessByte (cfg : Config) (level : BrightLevel) : Byte :=
  cfg.brightnessMarker ||| (level.setWidth 8 &&& cfg.levelMask)

/-- The level that a brightness byte carries (30_encoding R71, R72). -/
def wireLevel (cfg : Config) (b : Byte) : BrightLevel :=
  (b &&& cfg.levelMask).setWidth 5

/-- An instruction that its encoding can spell: SET's index fits INDEX_BITS (30_encoding R80), a pixel's brightness is of
BFMT, a reserved opcode is one, an LED frame's level can be read back from its byte (30_encoding R71; with the source's
literals every level can), and a Wait is that of D, which the token W does not carry (30_encoding R83). -/
def Instr.wf (cfg : Config) : Instr → Bool
  | .set index pixel => decide (index < 2 ^ Config.indexBits) && pixel.wf cfg.bfmt
  | .clearAll => true
  | .display => true
  | .size => true
  | .snapshot => true
  | .encode pixel => pixel.wf cfg.bfmt
  | .reservedCmd opcode => reservedOpcode opcode
  | .ledFrame level _ _ _ => decide (wireLevel cfg (brightnessByte cfg level) = level)
  | .startFrame => true
  | .endFrame => true
  | .setData _ => true
  | .setClk _ => true
  | .wait d => decide (d = cfg.delay)

/-- What the command port takes: the six commands (30_encoding R78) and a reserved opcode (R81). -/
def Instr.isCommand : Instr → Bool
  | .set _ _ => true
  | .clearAll => true
  | .display => true
  | .size => true
  | .snapshot => true
  | .encode _ => true
  | .reservedCmd _ => true
  | .ledFrame _ _ _ _ => false
  | .startFrame => false
  | .endFrame => false
  | .setData _ => false
  | .setClk _ => false
  | .wait _ => false

/-- A command of the abstract record (30_encoding R78): one of the six, its pixel of BFMT (10_state R21), its index any
natural number (R80). A reserved opcode is no such command (R81), nor is a line operation or a wire frame. -/
def Instr.isRecord (fmt : BFmt) : Instr → Bool
  | .set _ pixel => pixel.wf fmt
  | .clearAll => true
  | .display => true
  | .size => true
  | .snapshot => true
  | .encode pixel => pixel.wf fmt
  | .reservedCmd _ => false
  | .ledFrame _ _ _ _ => false
  | .startFrame => false
  | .endFrame => false
  | .setData _ => false
  | .setClk _ => false
  | .wait _ => false

end Sys2Proof
end

