-- ==== Sys2Proof/Decode.lean ====
section
/-! DEFINITION. The encodings of 30_encoding and spec/opcode_table.json: the decoder, total on any bits and rejecting by
name; then the encoder, from the same tables; then the host's numbering of the table's words. -/

namespace Sys2Proof

/-- One encoded instruction, in one of the formats of opcode_table.json. -/
inductive Code where
  /-- CMD: the bytes of one command of the binary port, first byte first (30_encoding R79). -/
  | cmd (bytes : List Byte)
  /-- WIRE32: the 32 bits of an LED frame, bit 31 sent first (30_encoding R71). -/
  | wire32 (w : Word)
  /-- WIRE_START: the bits of a start frame, one for each pulse (30_encoding R73). -/
  | wireStart (bits : List Bool)
  /-- WIRE_END: the bits of an end frame, one for each pulse (30_encoding R74). -/
  | wireEnd (bits : List Bool)
  /-- LINEOP: the 2-bit code of a line write (30_encoding R83). -/
  | lineOp (code : BitVec 2)
  /-- TRACE: the token W of a Wait (30_encoding R83). -/
  | waitToken
  deriving DecidableEq, Repr

/-- Why a code spells no instruction. -/
inductive DecodeError where
  /-- A command of no bytes: there is no opcode (30_encoding R79). -/
  | emptyCommand
  /-- The bytes after the opcode are not exactly its operands (30_encoding R79, R80). -/
  | wrongLength (opcode : Byte) (length : Nat)
  /-- 32 bits that are no LED frame: the marker is not 111 (30_encoding R77). -/
  | notAnLedFrame (w : Word)
  /-- Bits that are not the START_PULSES zeros of a start frame (30_encoding R73, R77). -/
  | notAStartFrame (bits : List Bool)
  /-- Bits that are not the END_PULSES zeros of an end frame (30_encoding R74, R77). -/
  | notAnEndFrame (bits : List Bool)
  deriving DecidableEq, Repr

/-! ### Bytes, big-endian (20_memory R57, 30_encoding R80) -/

def wordOfBytes (b3 b2 b1 b0 : Byte) : Word := b3 ++ b2 ++ b1 ++ b0

def dwordOfWords (hi lo : Word) : BitVec 64 := hi ++ lo

def bytesOfWord (w : Word) : List Byte :=
  [w.extractLsb' 24 8, w.extractLsb' 16 8, w.extractLsb' 8 8, w.extractLsb' 0 8]

def bytesOfDword (w : BitVec 64) : List Byte :=
  bytesOfWord (w.extractLsb' 32 32) ++ bytesOfWord (w.extractLsb' 0 32)

/-- The brightness operand's bit pattern (30_encoding R80): exactly 4 bytes for binary32, 8 for binary64. -/
def decodeBVal : BFmt → List Byte → Option BVal
  | .binary32, [b3, b2, b1, b0] => some (.b32 (wordOfBytes b3 b2 b1 b0))
  | .binary64, [b7, b6, b5, b4, b3, b2, b1, b0] =>
    some (.b64 (dwordOfWords (wordOfBytes b7 b6 b5 b4) (wordOfBytes b3 b2 b1 b0)))
  | _, _ => none

/-- The four operands of a pixel, in the order red, green, blue, brightness (30_encoding R80). -/
def decodePixel (fmt : BFmt) : List Byte → Option Pixel
  | red :: green :: blue :: brightness =>
    (decodeBVal fmt brightness).map fun v => { red := red, green := green, blue := blue, brightness := v }
  | _ => none

/-- SET's operands: index as u32, then the pixel (30_encoding R80). -/
def decodeSet (fmt : BFmt) : List Byte → Option Instr
  | i3 :: i2 :: i1 :: i0 :: pixel => (decodePixel fmt pixel).map (Instr.set (wordOfBytes i3 i2 i1 i0).toNat)
  | _ => none

/-- A command without operands is its opcode alone (30_encoding R80). -/
def decodeBare (i : Instr) : List Byte → Option Instr
  | [] => some i
  | _ :: _ => none

/-- The operands after an opcode that is not reserved (30_encoding R79, R80); a reserved opcode spells RESERVED_CMD,
whatever follows it (30_encoding R81; log entry 18). -/
def decodeOperands (fmt : BFmt) (opcode : Byte) (operands : List Byte) : Option Instr :=
  if opcode = 0x01#8 then decodeSet fmt operands
  else if opcode = 0x02#8 then decodeBare .clearAll operands
  else if opcode = 0x03#8 then decodeBare .display operands
  else if opcode = 0x04#8 then decodeBare .size operands
  else if opcode = 0x05#8 then decodeBare .snapshot operands
  else if opcode = 0x06#8 then (decodePixel fmt operands).map Instr.encode
  else some (.reservedCmd opcode)

/-- The binary command port (30_encoding R79). -/
def decodeCmd (fmt : BFmt) : List Byte → Except DecodeError Instr
  | [] => .error .emptyCommand
  | opcode :: operands =>
    match decodeOperands fmt opcode operands with
    | some i => .ok i
    | none => .error (.wrongLength opcode (operands.length + 1))

/-- 32 bits of the wire: an LED frame when the brightness byte is marker and level (30_encoding R71), else never emitted
(R77). -/
def decodeWire32 (cfg : Config) (w : Word) : Except DecodeError Instr :=
  let b := w.extractLsb' 24 8
  if brightnessByte cfg (wireLevel cfg b) = b then
    .ok (.ledFrame (wireLevel cfg b) (w.extractLsb' 16 8) (w.extractLsb' 8 8) (w.extractLsb' 0 8))
  else .error (.notAnLedFrame w)

/-- A start frame is START_PULSES zeros (30_encoding R73). -/
def decodeWireStart (cfg : Config) (bits : List Bool) : Except DecodeError Instr :=
  if bits = List.replicate cfg.startPulses false then .ok .startFrame else .error (.notAStartFrame bits)

/-- An end frame is END_PULSES zeros (30_encoding R74). -/
def decodeWireEnd (cfg : Config) (bits : List Bool) : Except DecodeError Instr :=
  if bits = List.replicate cfg.endPulses false then .ok .endFrame else .error (.notAnEndFrame bits)

/-- The 2-bit codes of the line writes (30_encoding R83): bit 1 is the line, 0 DATA and 1 CLOCK, bit 0 the level. -/
def decodeLineOp (code : BitVec 2) : Instr :=
  if code.getLsbD 1 then .setClk (code.getLsbD 0) else .setData (code.getLsbD 0)

/-- The decoder. The configuration gives BFMT, which sets the operands' lengths (30_encoding R79), the literals of the wire
frames (R71 to R74), and D, which the token W stands for (R83). -/
def decode (cfg : Config) : Code → Except DecodeError Instr
  | .cmd bytes => decodeCmd cfg.bfmt bytes
  | .wire32 w => decodeWire32 cfg w
  | .wireStart bits => decodeWireStart cfg bits
  | .wireEnd bits => decodeWireEnd cfg bits
  | .lineOp code => .ok (decodeLineOp code)
  | .waitToken => .ok (.wait cfg.delay)

/-! ### The encoder -/

def encodeBVal : BVal → List Byte
  | .b32 bits => bytesOfWord bits
  | .b64 bits => bytesOfDword bits

def encodePixelOperands (p : Pixel) : List Byte :=
  p.red :: p.green :: p.blue :: encodeBVal p.brightness

/-- The 32-bit wire word of the bytes in send order: brightness in bits 31..24 (20_memory R57). -/
def WireWord.toWord (w : WireWord) : Word :=
  wordOfBytes w.brightness w.blue w.green w.red

/-- The wire word whose 32-bit value is `w` (20_memory R57). -/
def WireWord.ofWord (w : Word) : WireWord :=
  { brightness := w.extractLsb' 24 8, blue := w.extractLsb' 16 8, green := w.extractLsb' 8 8, red := w.extractLsb' 0 8 }

/-- The wire word of an LED frame's fields (30_encoding R71). -/
def ledFrameWord (cfg : Config) (level : BrightLevel) (blue green red : Byte) : WireWord :=
  { brightness := brightnessByte cfg level, blue := blue, green := green, red := red }

def encodeLineOp (line : Line) (v : Bool) : BitVec 2 :=
  match line with
  | .data => 0#1 ++ BitVec.ofBool v
  | .clock => 1#1 ++ BitVec.ofBool v

/-- The code of an instruction that its encoding can spell, from the tables of 30_encoding R71, R73, R74, R79, R80 and R83. -/
def codeOf (cfg : Config) : Instr → Code
  | .set index pixel => .cmd (0x01#8 :: (bytesOfWord (BitVec.ofNat 32 index) ++ encodePixelOperands pixel))
  | .clearAll => .cmd [0x02#8]
  | .display => .cmd [0x03#8]
  | .size => .cmd [0x04#8]
  | .snapshot => .cmd [0x05#8]
  | .encode pixel => .cmd (0x06#8 :: encodePixelOperands pixel)
  | .reservedCmd opcode => .cmd [opcode]
  | .ledFrame level blue green red => .wire32 (ledFrameWord cfg level blue green red).toWord
  | .startFrame => .wireStart (List.replicate cfg.startPulses false)
  | .endFrame => .wireEnd (List.replicate cfg.endPulses false)
  | .setData v => .lineOp (encodeLineOp .data v)
  | .setClk v => .lineOp (encodeLineOp .clock v)
  | .wait _ => .waitToken

/-- The encoder: the code of a well-formed instruction, and none for one that its encoding cannot spell, such as a SET whose
index is above 2^32 - 1 (30_encoding R80). -/
def encode (cfg : Config) (i : Instr) : Option Code :=
  if i.wf cfg then some (codeOf cfg i) else none

/-- How many bits a code has. -/
def Code.bits : Code → Nat
  | .cmd bytes => 8 * bytes.length
  | .wire32 _ => 32
  | .wireStart bits => bits.length
  | .wireEnd bits => bits.length
  | .lineOp _ => 2
  | .waitToken => 0

/-- The length in bytes of the command of an opcode (30_encoding R79). -/
def commandLength (fmt : BFmt) (opcode : Byte) : Nat :=
  let brightness := match fmt with
    | .binary32 => 4
    | .binary64 => 8
  if opcode = 0x01#8 then 8 + brightness
  else if opcode = 0x06#8 then 4 + brightness
  else 1

/-! ### The words of opcode_table.json as the host numbers them (log entry 16) -/

/-- The first `n` bytes of the number `w`: bits 7..0 are the first byte. -/
def tableBytes : Nat → Nat → List Byte
  | 0, _ => []
  | n + 1, w => BitVec.ofNat 8 w :: tableBytes n (w / 256)

/-- Operand bytes the table does not give are 0. -/
def padCommand (fmt : BFmt) : List Byte → List Byte
  | [] => []
  | opcode :: operands =>
    opcode :: (operands ++ List.replicate (commandLength fmt opcode - 1 - operands.length) 0x00#8)

/-- The `n` low bits of the number `w`, the most significant first: the order of sending. -/
def tableBits (n w : Nat) : List Bool :=
  (List.range n).map fun k => w.testBit (n - 1 - k)

/-- The code of a table row's `nbits` bits `w`. The number of bits tells the format: 0 the token W, 2 a line write,
START_PULSES zeros the start frame, 32 bits else an LED frame, END_PULSES (or that number in whole bytes) the end frame, any
other number of whole bytes a command of the port. -/
def tableCode (cfg : Config) (nbits w : Nat) : Option Code :=
  if nbits = 0 then some .waitToken
  else if nbits = 2 then some (.lineOp (BitVec.ofNat 2 w))
  else if nbits = cfg.startPulses ∧ w = 0 then some (.wireStart (tableBits nbits w))
  else if nbits = 32 then some (.wire32 (BitVec.ofNat 32 w))
  else if nbits = cfg.endPulses ∨ nbits = 8 * ((cfg.endPulses + 7) / 8) then
    if w < 2 ^ cfg.endPulses then some (.wireEnd (tableBits cfg.endPulses w)) else none
  else if nbits % 8 = 0 then some (.cmd (padCommand cfg.bfmt (tableBytes (nbits / 8) w)))
  else none

/-- What the decoder reads from the table's bits `w`, under the parameters State.reset is built with. -/
def decodeTableWord (nbits w : Nat) : Option Instr :=
  match tableCode Config.default nbits w with
  | some code => (decode Config.default code).toOption
  | none => none

end Sys2Proof
end

