-- ==== Sys2Proof/Machine/State.lean ====
section
/-! DEFINITION. The state of the block (10_state R20 to R34) as plain data, the reasons a step can stop, and the state
after reset. -/

namespace Sys2Proof.Machine

/-- The lifecycle (10_state R30). -/
inductive Life where
  | absent
  | live
  | released
  deriving DecidableEq, Repr

/-- The level a line latch records (10_state R25). -/
inductive Level where
  | l0
  | l1
  | unknown
  deriving DecidableEq, Repr

/-- The command that started a display (10_state R26). -/
inductive Origin where
  | display
  | clearAll
  deriving DecidableEq, Repr

/-- The transmitter sequencer (10_state R26): IDLE, or BUSY(seq, pc, origin). -/
inductive Tx where
  | idle
  | busy (seq : List LineOp) (pc : Nat) (origin : Origin)
  deriving DecidableEq, Repr

/-- The responses (30_encoding R82, 60_exceptions R200). -/
inductive Response where
  /-- SET: Ok(accepted). -/
  | set (accepted : Bool)
  /-- CLEAR_ALL and DISPLAY: Ok. -/
  | done
  /-- CLEAR_ALL and DISPLAY: LineWriteFailed(op, line) (60_exceptions R202). -/
  | lineWriteFailed (op : Nat) (line : Line)
  /-- SIZE: Ok(n). -/
  | size (n : Nat)
  /-- SNAPSHOT: Ok of the wire words, slot 0 first. -/
  | snapshot (words : List Word)
  /-- ENCODE: Ok(w). -/
  | encoded (w : Word)
  /-- A reserved opcode: IllegalCommand (60_exceptions R204). -/
  | illegalCommand
  /-- A construction that failed: LineAcquireFailed (60_exceptions R203). It is delivered, and no block holds it
  (log entry 14). -/
  | lineAcquireFailed
  deriving DecidableEq, Repr

/-- A token of the trace (30_encoding R83): a LineWrite attempt with its result (ok is true), or a Wait. -/
inductive Token where
  | write (line : Line) (v : Bool) (ok : Bool)
  | wait (d : Nat)
  deriving DecidableEq, Repr

/-- One thing the host does (00_scope R19; log entry 1). -/
inductive HostItem where
  /-- One command on the binary port, delimited (30_encoding R79; log entry 7). -/
  | command (bytes : List Byte)
  /-- One command as the abstract record (30_encoding R78; log entry 27). -/
  | record (i : Instr)
  /-- CONSTRUCT_DRIVER (70_reset_and_hazards R230): the configuration, whether each line is acquired, and the draw
  `initBuf` (00_scope R16; log entry 13). -/
  | construct (cfg : Config) (clkAcquired dataAcquired : Bool) (initBuf : List Pixel)
  /-- TEARDOWN (70_reset_and_hazards R232). -/
  | teardown
  /-- The host drops the released block and may construct a new one (70_reset_and_hazards R231; log entry 13). -/
  | renew
  deriving DecidableEq, Repr

/-- How much the transmitter does in one step (log entry 10): one line operation (42_transmitter R170 to R172), or one
whole wire frame where one stands at pc. -/
inductive Grain where
  | op
  | frame
  deriving DecidableEq, Repr

/-- Why the machine stops with a fault. The spec gives the block no trap (60_exceptions, head). -/
inductive Fault where
  /-- Raised by step when BUSY and pc > len(seq), which 10_state R26 excludes. Safe: no run from reset reaches it
  (log entry 15). -/
  | sequencerOverrun
  deriving DecidableEq, Repr

/-- Why an instruction or a host step has no meaning where it stands. -/
inductive Refusal where
  /-- Raised by exec's arm of an instruction that has no meaning yet. Safe. -/
  | notModelled (mnemonic : String)
  /-- Raised by every command, line operation and TEARDOWN when life is ABSENT or RELEASED: such a command "has no meaning:
  the model refuses it" (60_exceptions R205, 70_reset_and_hazards R232; log entry 25 for line operations). Safe. -/
  | notLive
  /-- Raised by CONSTRUCT_DRIVER when life is not ABSENT (70_reset_and_hazards R230: require life = ABSENT). Safe. -/
  | notAbsent
  /-- Raised by `renew` when life is not RELEASED: there is no released block to drop (log entry 13). Safe. -/
  | notReleased
  /-- Raised by step when a delimited byte string is not one command of the port: the framing is OPEN (30_encoding R79;
  log entry 7). Safe. -/
  | badCommand (why : DecodeError)
  /-- Raised by step when the record the host presents is no command of 30_encoding R78: a reserved opcode, which "a model
  that works on the record refuses" (R81), a line operation or a wire frame, or a pixel that is not of BFMT (log entry 27).
  Safe. -/
  | badRecord (i : Instr)
  deriving DecidableEq, Repr

/-- The state. `life` to `resp` are the record of 10_state R20; `cfg` is the configuration, which no step but construction
writes (R31; log entry 4); the rest are the model's own: the inputs of host and line environment (log entries 1, 2), what the
block has shown to the outside (log entry 9), and the transmitter's grain (log entry 10). -/
structure State where
  life : Life
  /-- The pixel slots, slot 0 first (10_state R22). Their number is `cfg.nPixels`, 8, as `BufOk` of Safety.lean says. -/
  buf : List Pixel
  /-- The latch of CLOCK (10_state R25). -/
  clk : Level
  /-- The latch of DATA (10_state R25). -/
  dat : Level
  tx : Tx
  /-- The response of the most recently completed command, none for NONE (10_state R29). -/
  resp : Option Response
  cfg : Config
  /-- What the host will still do, next first. -/
  inbox : List HostItem
  /-- The line environment's next answers, ok is true; once used up, `Config.lineOracle` answers. -/
  answers : List Bool
  /-- How many LineWrites were attempted: the argument of `Config.lineOracle`. -/
  attempts : Nat
  /-- The trace so far, oldest token first. -/
  log : List Token
  /-- The responses delivered to the host so far, oldest first. -/
  delivered : List Response
  grain : Grain
  deriving DecidableEq, Repr

/-- OFF (40_pixel_model R101): the pixel (0, 0, 0, +0.0), the brightness of the format BFMT. -/
def off : BFmt → Pixel
  | .binary32 => { red := 0#8, green := 0#8, blue := 0#8, brightness := .b32 0#32 }
  | .binary64 => { red := 0#8, green := 0#8, blue := 0#8, brightness := .b64 0#64 }

/-- The state right after a successful construction (10_state R34), for each draw `initBuf`. -/
def State.constructed (cfg : Config) (initBuf : List Pixel) : State :=
  { life := .live, buf := initBuf, clk := .unknown, dat := .unknown, tx := .idle, resp := none, cfg := cfg,
    inbox := [], answers := [], attempts := 0, log := [], delivered := [], grain := .op }

/-- The state after reset (10_state R34). DESIGN CHOICE, unsafe: the initial slots are a draw in the spec, here eight
times OFF (log entry 3); the OPEN parameters are those of `Config.default` (log entries 4, 5). -/
def State.reset : State :=
  State.constructed Config.default (List.replicate Config.default.nPixels (off Config.default.bfmt))

/-- BUSY, the one status flag (10_state R28). -/
def State.busy (s : State) : Bool :=
  match s.tx with
  | .idle => false
  | .busy _ _ _ => true

end Sys2Proof.Machine
end

