-- ==== Sys2Proof/Machine/Flags.lean ====
section
/-! DEFINITION. The block has no condition codes and no arithmetic flags; its one status flag BUSY is `State.busy`
(10_state R28). This file holds what a command reports instead: the result codes (60_exceptions R200) and the bytes of a
response (30_encoding R82). -/

namespace Sys2Proof.Machine

/-- The result codes (60_exceptions R200). -/
inductive ResultCode where
  | ok
  | lineWriteFailed
  | lineAcquireFailed
  | illegalCommand
  deriving DecidableEq, Repr

/-- The numbering of the result codes (60_exceptions R200). -/
def ResultCode.byte : ResultCode → Byte
  | .ok => 0x00#8
  | .lineWriteFailed => 0x01#8
  | .lineAcquireFailed => 0x02#8
  | .illegalCommand => 0x03#8

/-- The result code of a response (60_exceptions R200, R201). -/
def Response.code : Response → ResultCode
  | .set _ => .ok
  | .done => .ok
  | .lineWriteFailed _ _ => .lineWriteFailed
  | .size _ => .ok
  | .snapshot _ => .ok
  | .encoded _ => .ok
  | .illegalCommand => .illegalCommand
  | .lineAcquireFailed => .lineAcquireFailed

/-- A number as u32, big-endian (30_encoding R80). -/
def u32Bytes (n : Nat) : List Byte := bytesOfWord (BitVec.ofNat 32 n)

/-- The line byte of LineWriteFailed: 00 DATA, 01 CLOCK (30_encoding R82). -/
def lineByte : Line → Byte
  | .data => 0x00#8
  | .clock => 0x01#8

/-- The bytes after the result code (30_encoding R82). -/
def Response.info : Response → List Byte
  | .set accepted => [if accepted then 0x01#8 else 0x00#8]
  | .done => []
  | .lineWriteFailed op line => u32Bytes op ++ [lineByte line]
  | .size n => u32Bytes n
  | .snapshot words => words.flatMap bytesOfWord
  | .encoded w => bytesOfWord w
  | .illegalCommand => []
  | .lineAcquireFailed => []

/-- The binary response: byte 0 is the result code (30_encoding R82). -/
def Response.bytes (r : Response) : List Byte :=
  r.code.byte :: r.info

end Sys2Proof.Machine
end

