-- ==== Sys2Proof/Machine/Operands.lean ====
section
/-! DEFINITION. The operand forms: a slot by its index, and the brightness operand as the number it stands for. -/

namespace Sys2Proof.Machine

/-! ### Slots (20_memory R50, R52) -/

/-- An index is mapped when it names a slot: index < N_PIXELS (20_memory R52). -/
def mapped (cfg : Config) (index : Nat) : Bool := decide (index < cfg.nPixels)

/-- `buf[index] <- pixel` for a mapped index; an unmapped index reaches no slot (20_memory R52, 41_pixel_buffer R132). -/
def writeSlot (cfg : Config) (buf : List Pixel) (index : Nat) (pixel : Pixel) : List Pixel :=
  if mapped cfg index then buf.set index pixel else buf

/-- `buf[index]` for a mapped index. -/
def readSlot (buf : List Pixel) (index : Nat) : Option Pixel := buf[index]?

/-- Every slot OFF (41_pixel_buffer R133). -/
def allOff (cfg : Config) : List Pixel := List.replicate cfg.nPixels (off cfg.bfmt)

/-! ### The number a brightness stands for (00_scope R13; log entry 8) -/

/-- What a bit pattern of a binary format stands for: NaN, an infinity, or the finite number
(-1)^negative * significand * 2^exponent. -/
inductive FVal where
  | nan
  | infinite (negative : Bool)
  | finite (negative : Bool) (significand : Nat) (exponent : Int)
  deriving DecidableEq, Repr

/-- p, the precision in bits of a format's significand. -/
def precision : BFmt → Nat
  | .binary32 => 24
  | .binary64 => 53

/-- Reads the three fields of a binary format of precision `p`. An exponent field of `eMax`, all ones, is an infinity or
NaN; the significand's unit bit has the weight 2^(field - bias), where a field of 0 counts as 1 and adds no leading bit. -/
def unpackFields (p eMax bias : Nat) (negative : Bool) (exponentField fraction : Nat) : FVal :=
  if exponentField = eMax then
    if fraction = 0 then .infinite negative else .nan
  else if exponentField = 0 then .finite negative fraction (1 - (bias : Int))
  else .finite negative (2 ^ (p - 1) + fraction) ((exponentField : Int) - (bias : Int))

/-- The number of a brightness value: sign, exponent field and fraction of binary32 (1, 8, 23 bits) and binary64
(1, 11, 52 bits). PRESUMED: the IEEE 754 formats, which the spec names (00_scope R13) and does not lay out (log entry 8). -/
def unpack : BVal → FVal
  | .b32 bits =>
    unpackFields 24 255 150 (bits.getLsbD 31) (bits.extractLsb' 23 8).toNat (bits.extractLsb' 0 23).toNat
  | .b64 bits =>
    unpackFields 53 2047 1075 (bits.getLsbD 63) (bits.extractLsb' 52 11).toNat (bits.extractLsb' 0 52).toNat

/-- Whether a brightness is in the valid range, 0.0 <= br <= 1.0, with -0.0 counting as 0.0 (40_pixel_model R102). -/
def inUnitRange (br : BVal) : Bool :=
  match unpack br with
  | .finite negative m e =>
    if m = 0 then true
    else if negative then false
    else if 0 ≤ e then decide (m * 2 ^ e.toNat ≤ 1) else decide (m ≤ 2 ^ (-e).toNat)
  | _ => false

end Sys2Proof.Machine
end

