-- ==== Sys2Proof/Machine/PixelModel.lean ====
section
/-! DEFINITION. The pixel model: the brightness quantiser Q and the encoder (40_pixel_model R100 to R106). -/

namespace Sys2Proof.Machine

/-! ### fl_BFMT(br * 31.0), 40_pixel_model R102 -/

/-- How many low bits of `n` must go so that what is left is below 2^p, looking at most `fuel` bits far. -/
def excessBits (p : Nat) : Nat → Nat → Nat
  | 0, _ => 0
  | fuel + 1, n => if n < 2 ^ p then 0 else excessBits p fuel (n / 2) + 1

/-- `n / 2^k` rounded to nearest, ties to even (00_scope R18). -/
def roundNearestEven (n k : Nat) : Nat :=
  let q := n / 2 ^ k
  let r := n % 2 ^ k
  if 2 * r < 2 ^ k then q
  else if 2 ^ k < 2 * r then q + 1
  else q + q % 2

/-- The product of a significand of precision `p` with the scale factor, 31, rounded to precision `p`: the pair (q, k) for
q * 2^k. The exponent only grows, so no further rounding happens at the format's smallest exponent; a product past the
format's largest finite number is far beyond 256 either way (40_pixel_model R104). -/
def roundedProduct (scale p m : Nat) : Nat × Nat :=
  let n := m * scale
  let k := excessBits p scale n
  (roundNearestEven n k, k)

/-- trunc(s) of a non-negative s = q * 2^e; shifting right by n divides by 2^n and drops the fraction. -/
def truncScaled (q : Nat) (e : Int) : Nat :=
  if 0 ≤ e then q * 2 ^ e.toNat else q >>> (-e).toNat

/-- trunc(fl_BFMT(br * 31.0)) of a finite brightness with significand `m` and exponent `e` (40_pixel_model R102, R103). -/
def scaledLevel (scale : Nat) (fmt : BFmt) (m : Nat) (e : Int) : Nat :=
  let (q, k) := roundedProduct scale (precision fmt) m
  truncScaled q (e + k)

/-- Q(br) (40_pixel_model R102, R103, R104): the truncated float product masked to five bits for a brightness of 0 or more
(-0.0 counts as 0.0) whose scaled value is below 256; the free value qOOR for every other brightness. -/
def quantise (cfg : Config) (br : BVal) : BrightLevel :=
  match unpack br with
  | .nan => Config.qOOR br
  | .infinite _ => Config.qOOR br
  | .finite negative m e =>
    if negative && decide (m ≠ 0) then Config.qOOR br
    else
      let level := scaledLevel cfg.brightnessScale br.fmt m e
      if level < 256 then BitVec.ofNat 5 (level &&& cfg.levelMask.toNat) else Config.qOOR br

/-! ### The encoder (40_pixel_model R105) -/

/-- ENCODE(p) (40_pixel_model R105): the marker and the level, and the channels unchanged. -/
def encodePixel (cfg : Config) (p : Pixel) : WireWord :=
  ledFrameWord cfg (quantise cfg p.brightness) p.blue p.green p.red

/-- [ENCODE(buf[0]), ..., ENCODE(buf[7])] (41_pixel_buffer R134, R135). -/
def encodeBuffer (cfg : Config) (buf : List Pixel) : List WireWord :=
  buf.map (encodePixel cfg)

end Sys2Proof.Machine
end

