-- ==== Sys2Proof/Machine/Sequence.lean ====
section
/-! DEFINITION. The display sequence (42_transmitter R162 to R168): pure functions to lists of line operations. `d` is the
delay D, `cfg` the configuration. -/

namespace Sys2Proof.Machine

/-- PULSE (42_transmitter R162). -/
def pulseOps (d : Nat) : List LineOp :=
  [.write .clock true, .wait d, .write .clock false, .wait d]

/-- PULSE^n. -/
def pulsesOps (d : Nat) : Nat → List LineOp
  | 0 => []
  | n + 1 => pulseOps d ++ pulsesOps d n

/-- START (42_transmitter R163). -/
def startOps (cfg : Config) : List LineOp :=
  .write .data false :: pulsesOps cfg.delay cfg.startPulses

/-- BIT(v) (42_transmitter R164). -/
def bitOps (d : Nat) (v : Bool) : List LineOp :=
  .write .data v :: pulseOps d

/-- The bits of a byte from the most significant to the least. -/
def bitsOfByte (b : Byte) : List Bool :=
  [b.getLsbD 7, b.getLsbD 6, b.getLsbD 5, b.getLsbD 4, b.getLsbD 3, b.getLsbD 2, b.getLsbD 1, b.getLsbD 0]

/-- BYTE(b) (42_transmitter R165). -/
def byteOps (d : Nat) (b : Byte) : List LineOp :=
  (bitsOfByte b).flatMap (bitOps d)

/-- WORD(w) (42_transmitter R166). -/
def wordOps (d : Nat) (w : WireWord) : List LineOp :=
  byteOps d w.brightness ++ byteOps d w.blue ++ byteOps d w.green ++ byteOps d w.red

/-- END (42_transmitter R167). -/
def endOps (cfg : Config) : List LineOp :=
  .write .data false :: pulsesOps cfg.delay cfg.endPulses

/-- SEQ(ws) (42_transmitter R168). -/
def displayOps (cfg : Config) (ws : List WireWord) : List LineOp :=
  startOps cfg ++ ws.flatMap (wordOps cfg.delay) ++ endOps cfg

end Sys2Proof.Machine
end

