-- ==== Sys2Proof/Machine/Ops.lean ====
section
/-! DEFINITION. The named operations on the state: updates of one part, the response, the line write, the abort (the
block's only exception entry), and the start and the end of a display. -/

namespace Sys2Proof.Machine

/-! ### Updates of one part -/

def State.setLife (s : State) (life : Life) : State := { s with life := life }

def State.setBuf (s : State) (buf : List Pixel) : State := { s with buf := buf }

def State.setTx (s : State) (tx : Tx) : State := { s with tx := tx }

def State.setInbox (s : State) (inbox : List HostItem) : State := { s with inbox := inbox }

def State.setGrain (s : State) (grain : Grain) : State := { s with grain := grain }

/-- `latch(line) <- level` (42_transmitter R160). -/
def State.setLatch (s : State) (line : Line) (level : Level) : State :=
  match line with
  | .clock => { s with clk := level }
  | .data => { s with dat := level }

/-- Adds a token to the trace (30_encoding R83; log entry 9). -/
def State.record (s : State) (t : Token) : State := { s with log := s.log ++ [t] }

/-- Delivers a response to the host without storing it: for a construction that failed (60_exceptions R203). -/
def State.deliver (s : State) (r : Response) : State := { s with delivered := s.delivered ++ [r] }

/-- `respond(r)`: delivers the response and stores it in `resp` (00_scope R18, 10_state R29). -/
def State.respond (s : State) (r : Response) : State :=
  { s with resp := some r, delivered := s.delivered ++ [r] }

/-- The latch of a line (10_state R25). -/
def State.latch (s : State) (line : Line) : Level :=
  match line with
  | .clock => s.clk
  | .data => s.dat

/-- The level Lv of a value v (10_state R25). -/
def levelOf (v : Bool) : Level := if v then .l1 else .l0

/-! ### When something may happen -/

/-- A command is accepted when LIVE and IDLE (10_state R28, R30). While BUSY it is held: the host has no step and nothing
changes (60_exceptions R205; log entry 12). When ABSENT or RELEASED it is refused (R205). -/
def whenReady (s : State) (next : State) : Host.Outcome State Fault Refusal :=
  match s.life, s.tx with
  | .live, .idle => .next next
  | .live, .busy _ _ _ => .next s
  | _, _ => .refused .notLive

/-- A line operation needs a block that owns the lines (20_memory R64, 60_exceptions R205). -/
def whenLive (s : State) (next : State) : Host.Outcome State Fault Refusal :=
  match s.life with
  | .live => .next next
  | _ => .refused .notLive

/-! ### The line interface (42_transmitter R160, R161) -/

/-- The line environment's answer to the next attempt: the next of `answers`, or the free value (log entry 2). -/
def State.nextAnswer (s : State) : Bool :=
  match s.answers with
  | ok :: _ => ok
  | [] => Config.lineOracle s.attempts

/-- The environment has answered one attempt. -/
def State.useAnswer (s : State) : State :=
  { s with answers := s.answers.tail, attempts := s.attempts + 1 }

/-- LineWrite(line, v) with its effect on the line (42_transmitter R160): the attempt is an event, the latch becomes Lv on
ok and UNKNOWN on fail. The answer returned is `s.nextAnswer`. -/
def State.lineWrite (s : State) (line : Line) (v : Bool) : State :=
  ((s.useAnswer).record (.write line v s.nextAnswer)).setLatch line (if s.nextAnswer then levelOf v else .unknown)

/-- `pc <- pc + 1` while a display runs (10_state R27). -/
def State.advance (s : State) : State :=
  match s.tx with
  | .idle => s
  | .busy seq pc origin => s.setTx (.busy seq (pc + 1) origin)

/-- What an abort does, the block's only exception entry (60_exceptions R206): `tx <- IDLE`, and LineWriteFailed(op, line) is
the response. The failing line's latch is already UNKNOWN. There is no saved state and no return from it (R209). -/
def State.abortAt (s : State) (op : Nat) (line : Line) : State :=
  (s.setTx .idle).respond (.lineWriteFailed op line)

/-- The abort at the sequencer position (42_transmitter R171). With no display running there is none to abort and no command
to answer (log entry 11). -/
def State.abortDisplay (s : State) (line : Line) : State :=
  match s.tx with
  | .idle => s
  | .busy _ pc _ => s.abortAt pc line

/-- Whether the line operation succeeds: a Wait never fails (42_transmitter R161). -/
def State.opSucceeds (s : State) : LineOp → Bool
  | .write _ _ => s.nextAnswer
  | .wait _ => true

/-- One line operation of the transmitter (42_transmitter R170, R171, R172). DESIGN CHOICE, safe (log entry 28): R170 to R172
are stated for the operation at pc, which is what a step runs; exec of another one while BUSY does the same with it, moving
pc on by one or aborting at pc. -/
def State.performOp (s : State) : LineOp → State
  | .write line v =>
    if s.nextAnswer then (s.lineWrite line v).advance else (s.lineWrite line v).abortDisplay line
  | .wait d => (s.record (.wait d)).advance

/-- The line operations in order, up to and including the first that fails (20_memory R59, 42_transmitter R171). -/
def State.performOps (s : State) : List LineOp → State
  | [] => s
  | op :: rest => if s.opSucceeds op then (s.performOp op).performOps rest else s.performOp op

/-! ### A display (42_transmitter R169, R173) -/

/-- `start_display(origin)` (42_transmitter R169): the words are latched at acceptance. -/
def State.startDisplay (s : State) (origin : Origin) : State :=
  s.setTx (.busy (displayOps s.cfg (encodeBuffer s.cfg s.buf)) 0 origin)

/-- The completion of a display (42_transmitter R173). -/
def State.completeDisplay (s : State) : State :=
  (s.setTx .idle).respond .done

end Sys2Proof.Machine
end

