-- ==== Sys2Proof/Machine/Buffer.lean ====
section
/-! DEFINITION. The commands of the port that drive no line: SET, SIZE, SNAPSHOT, ENCODE and the reserved opcodes
(41_pixel_buffer, 40_pixel_model R107, 30_encoding R81). -/

namespace Sys2Proof.Machine

/-- SET(index, pixel) (41_pixel_buffer R131, R132): an index of 8 or more writes no slot and is reported. -/
def execSet (index : Nat) (pixel : Pixel) (s : State) : Host.Outcome State Fault Refusal :=
  whenReady s ((s.setBuf (writeSlot s.cfg s.buf index pixel)).respond (.set (mapped s.cfg index)))

/-- SIZE (41_pixel_buffer R130). -/
def execSize (s : State) : Host.Outcome State Fault Refusal :=
  whenReady s (s.respond (.size s.cfg.nPixels))

/-- SNAPSHOT (41_pixel_buffer R134). -/
def execSnapshot (s : State) : Host.Outcome State Fault Refusal :=
  whenReady s (s.respond (.snapshot ((encodeBuffer s.cfg s.buf).map WireWord.toWord)))

/-- ENCODE(pixel) as a command (40_pixel_model R107). -/
def execEncode (pixel : Pixel) (s : State) : Host.Outcome State Fault Refusal :=
  whenReady s (s.respond (.encoded (encodePixel s.cfg pixel).toWord))

/-- A reserved opcode (30_encoding R81, 60_exceptions R204): no state but `resp`, no line operation, whichever opcode. -/
def execReservedCmd (_opcode : Byte) (s : State) : Host.Outcome State Fault Refusal :=
  whenReady s (s.respond .illegalCommand)

end Sys2Proof.Machine
end

