-- ==== Sys2Proof/Machine/Transmitter.lean ====
section
/-! DEFINITION. The commands that start a display, the line operations, and the wire frames (41_pixel_buffer R133,
42_transmitter). -/

namespace Sys2Proof.Machine

/-- CLEAR_ALL (41_pixel_buffer R133): every slot OFF, then the start of a display of the cleared buffer. -/
def execClearAll (s : State) : Host.Outcome State Fault Refusal :=
  whenReady s ((s.setBuf (allOff s.cfg)).startDisplay .clearAll)

/-- DISPLAY (42_transmitter R169). -/
def execDisplay (s : State) : Host.Outcome State Fault Refusal :=
  whenReady s (s.startDisplay .display)

/-- SETDATA v: LineWrite(DATA, v), with the transmitter's step around it (42_transmitter R160, R170, R171). -/
def execSetData (v : Bool) (s : State) : Host.Outcome State Fault Refusal :=
  whenLive s (s.performOp (.write .data v))

/-- SETCLK v: LineWrite(CLOCK, v), with the transmitter's step around it (42_transmitter R160, R170, R171). -/
def execSetClk (v : Bool) (s : State) : Host.Outcome State Fault Refusal :=
  whenLive s (s.performOp (.write .clock v))

/-- WAIT d (42_transmitter R161, R172): no line is written; the token W is recorded. -/
def execWait (d : Nat) (s : State) : Host.Outcome State Fault Refusal :=
  whenLive s (s.performOp (.wait d))

/-- START_FRAME: the operations of START in order, up to the first that fails (42_transmitter R163, 30_encoding R73). -/
def execStartFrame (s : State) : Host.Outcome State Fault Refusal :=
  whenLive s (s.performOps (startOps s.cfg))

/-- LED_FRAME: the operations of WORD in order, up to the first that fails (42_transmitter R166, 30_encoding R71). -/
def execLedFrame (level : BrightLevel) (blue green red : Byte) (s : State) : Host.Outcome State Fault Refusal :=
  whenLive s (s.performOps (wordOps s.cfg.delay (ledFrameWord s.cfg level blue green red)))

/-- END_FRAME: the operations of END in order, up to the first that fails (42_transmitter R167, 30_encoding R74). -/
def execEndFrame (s : State) : Host.Outcome State Fault Refusal :=
  whenLive s (s.performOps (endOps s.cfg))

end Sys2Proof.Machine
end

