-- ==== Sys2Proof/Machine/Dispatch.lean ====
section
/-! DEFINITION. One arm per constructor of Instr, each a direct call of its meaning. -/

namespace Sys2Proof.Machine

def exec (i : Instr) (s : State) : Host.Outcome State Fault Refusal :=
  match i with
  -- commands of the port (30_encoding R78, R81)
  | .set index pixel => Sys2Proof.Machine.execSet index pixel s
  | .clearAll => Sys2Proof.Machine.execClearAll s
  | .display => Sys2Proof.Machine.execDisplay s
  | .size => Sys2Proof.Machine.execSize s
  | .snapshot => Sys2Proof.Machine.execSnapshot s
  | .encode pixel => Sys2Proof.Machine.execEncode pixel s
  | .reservedCmd opcode => Sys2Proof.Machine.execReservedCmd opcode s
  -- wire frames (30_encoding R71, R73, R74)
  | .ledFrame level blue green red => Sys2Proof.Machine.execLedFrame level blue green red s
  | .startFrame => Sys2Proof.Machine.execStartFrame s
  | .endFrame => Sys2Proof.Machine.execEndFrame s
  -- line operations (30_encoding R83)
  | .setData v => Sys2Proof.Machine.execSetData v s
  | .setClk v => Sys2Proof.Machine.execSetClk v s
  | .wait d => Sys2Proof.Machine.execWait d s

end Sys2Proof.Machine
end

