-- ==== Sys2Proof/Machine/Lifecycle.lean ====
section
/-! DEFINITION. The lifecycle steps of the host: CONSTRUCT_DRIVER and TEARDOWN (70_reset_and_hazards R230 to R232). They
are no commands and no rows of the opcode table. -/

namespace Sys2Proof.Machine

/-- The state of 10_state R34 in the block's own fields; the model's own fields are kept (log entry 13). -/
def State.build (s : State) (cfg : Config) (initBuf : List Pixel) : State :=
  { s with life := .live, buf := initBuf, clk := .unknown, dat := .unknown, tx := .idle, resp := none, cfg := cfg }

/-- CONSTRUCT_DRIVER (70_reset_and_hazards R230): one step that makes a LIVE block or none. On a failed acquire the host
gets LineAcquireFailed and life stays ABSENT (60_exceptions R203). -/
def constructDriver (cfg : Config) (clkAcquired dataAcquired : Bool) (initBuf : List Pixel) (s : State) :
    Host.Outcome State Fault Refusal :=
  match s.life with
  | .absent =>
    if clkAcquired && dataAcquired then .next (s.build cfg initBuf) else .next (s.deliver .lineAcquireFailed)
  | _ => .refused .notAbsent

/-- TEARDOWN (70_reset_and_hazards R232): no line level is written. A second one is refused. -/
def teardown (s : State) : Host.Outcome State Fault Refusal :=
  whenReady s (s.setLife .released)

/-- The released block is dropped; what may be constructed next is a new block (70_reset_and_hazards R231; log entry 13). -/
def renew (s : State) : Host.Outcome State Fault Refusal :=
  match s.life with
  | .released => .next (s.setLife .absent)
  | _ => .refused .notReleased

end Sys2Proof.Machine
end

