-- ==== Sys2Proof/Machine/Fetch.lean ====
section
/-! DEFINITION. Who moves next and with what: the transmitter at the sequencer position while BUSY, else the host. Also how
a word of the opcode table is placed where the next step finds it. -/

namespace Sys2Proof.Machine

/-- The instruction of one line operation (30_encoding R83). -/
def instrOfOp : LineOp → Instr
  | .write .data v => .setData v
  | .write .clock v => .setClk v
  | .wait d => .wait d

/-! ### Reading a wire frame back from the sequence (log entry 10) -/

/-- The data bit of bit cell `m` when `ops` begins with bit cells (42_transmitter R164, R175). -/
def cellBit (ops : List LineOp) (m : Nat) : Bool :=
  match ops[5 * m]? with
  | some (.write .data v) => v
  | _ => false

/-- The byte of bit cells `m` to `m + 7`, most significant first (42_transmitter R165). -/
def cellByte (ops : List LineOp) (m : Nat) : Byte :=
  BitVec.ofBool (cellBit ops m) ++ BitVec.ofBool (cellBit ops (m + 1)) ++ BitVec.ofBool (cellBit ops (m + 2))
    ++ BitVec.ofBool (cellBit ops (m + 3)) ++ BitVec.ofBool (cellBit ops (m + 4)) ++ BitVec.ofBool (cellBit ops (m + 5))
    ++ BitVec.ofBool (cellBit ops (m + 6)) ++ BitVec.ofBool (cellBit ops (m + 7))

/-- The 32-bit word that 32 bit cells carry (42_transmitter R166). -/
def cellWord (ops : List LineOp) : Word :=
  wordOfBytes (cellByte ops 0) (cellByte ops 8) (cellByte ops 16) (cellByte ops 24)

/-- The wire frame that `ops` begins with, if any. START is a part of END, so END is looked for first. -/
def frameAt (cfg : Config) (ops : List LineOp) : Option Instr :=
  if (endOps cfg).isPrefixOf ops then some .endFrame
  else if (startOps cfg).isPrefixOf ops then some .startFrame
  else if (wordOps cfg.delay (WireWord.ofWord (cellWord ops))).isPrefixOf ops then
    (decodeWire32 cfg (cellWord ops)).toOption
  else none

/-- The transmitter's next instruction: the line operation at pc, or at frame grain the wire frame that starts there, if
one does. -/
def fetchTx (grain : Grain) (cfg : Config) (op : LineOp) (rest : List LineOp) : Instr :=
  match grain with
  | .op => instrOfOp op
  | .frame => (frameAt cfg (op :: rest)).getD (instrOfOp op)

/-! ### The next move -/

/-- What the next step does: an instruction from a state, or something that is no instruction. -/
inductive Move where
  | run (i : Instr) (s : State)
  | other (o : Host.Outcome State Fault Refusal)

/-- The transmitter's move (42_transmitter R170 to R173): an operation of `seq` at pc, or the completion at its end. -/
def transmitterMove (s : State) (seq : List LineOp) (pc : Nat) : Move :=
  match seq.drop pc with
  | op :: rest => .run (fetchTx s.grain s.cfg op rest) s
  | [] => if pc = seq.length then .other (.next s.completeDisplay) else .other (.fault .sequencerOverrun)

/-- The host's move: the next item of `inbox`. With none the block waits (70_reset_and_hazards R231). -/
def hostMove (s : State) : Move :=
  match s.inbox with
  | [] => .other (.next s)
  | .command bytes :: rest =>
    match decode s.cfg (.cmd bytes) with
    | .ok i => .run i (s.setInbox rest)
    | .error why => .other (.refused (.badCommand why))
  | .record i :: rest => if i.isRecord s.cfg.bfmt then .run i (s.setInbox rest) else .other (.refused (.badRecord i))
  | .construct cfg clkAcquired dataAcquired initBuf :: rest =>
    .other (constructDriver cfg clkAcquired dataAcquired initBuf (s.setInbox rest))
  | .teardown :: rest => .other (teardown (s.setInbox rest))
  | .renew :: rest => .other (renew (s.setInbox rest))

/-- The host has no step while BUSY (10_state R28). -/
def nextMove (s : State) : Move :=
  match s.tx with
  | .busy seq pc _ => transmitterMove s seq pc
  | .idle => hostMove s

/-! ### Placing a word of the opcode table (log entry 16) -/

/-- The line operations that put a wire code on the lines. -/
def opsOfCode (cfg : Config) : Code → List LineOp
  | .cmd _ => []
  | .wire32 w => wordOps cfg.delay (WireWord.ofWord w)
  | .wireStart _ => startOps cfg
  | .wireEnd _ => endOps cfg
  | .lineOp code =>
    [.write (if code.getLsbD 1 then .clock else .data) (code.getLsbD 0)]
  | .waitToken => [.wait cfg.delay]

/-- Places an encoded instruction where the next step finds it: a command is what the host does next, on an IDLE block; a
line operation or a frame is what the transmitter has latched, at pc 0. -/
def State.placeCode (s : State) (code : Code) : State :=
  match code with
  | .cmd bytes => ((s.setLife .live).setTx .idle).setInbox (.command bytes :: s.inbox)
  | .wire32 _ | .wireStart _ | .wireEnd _ =>
    ((s.setLife .live).setTx (.busy (opsOfCode s.cfg code) 0 .display)).setGrain .frame
  | .lineOp _ | .waitToken =>
    ((s.setLife .live).setTx (.busy (opsOfCode s.cfg code) 0 .display)).setGrain .op

/-- Places the table's bits; bits of no format place nothing. -/
def State.placeTableWord (s : State) (nbits w : Nat) : State :=
  match tableCode s.cfg nbits w with
  | some code => s.placeCode code
  | none => s

end Sys2Proof.Machine
end

