-- ==== Sys2Proof/Machine/Step.lean ====
section
/-! DEFINITION. One step of the machine. -/

namespace Sys2Proof.Machine

/-- One step: the transmitter's while BUSY, else the host's (00_scope R19, 10_state R28). -/
def step (s : State) : Host.Outcome State Fault Refusal :=
  match nextMove s with
  | .run i s' => exec i s'
  | .other o => o

/-- `s` with the table's instruction placed where the next step finds it (log entry 16). -/
def State.withFetchWord (s : State) (nbits w : Nat) : State :=
  s.placeTableWord nbits w

end Sys2Proof.Machine
end

