-- ==== Sys2Proof/Machine/Counter.lean ====
section
/-! DEFINITION. The counter and shift-register form of the sequencer (42_transmitter R180), beside the machine: it attempts
the operations of SEQ in the same order, aborts as R171 and completes as R173. -/

namespace Sys2Proof.Machine

/-- The phases (42_transmitter R180). -/
inductive Phase where
  | startD
  | startP
  | load
  | bitD
  | bitP
  | endD
  | endP
  | done
  deriving DecidableEq, Repr

/-- The micro-steps of a PULSE (42_transmitter R180). -/
inductive Micro where
  | c1
  | w1
  | c0
  | w2
  deriving DecidableEq, Repr

/-- The registers of the form (42_transmitter R180). -/
structure Counter where
  phase : Phase
  /-- The pulse counter within a frame. -/
  k : Nat
  /-- The slot. -/
  p : Nat
  /-- The byte: 0 brightness, 1 blue, 2 green, 3 red. -/
  j : Nat
  /-- The shift register. -/
  sr : Byte
  /-- Bits left in the shift register. -/
  i : Nat
  mu : Micro
  deriving DecidableEq, Repr

/-- Where the form stands when a display is accepted; registers it has not yet set are 0. -/
def Counter.start : Counter :=
  { phase := .startD, k := 0, p := 0, j := 0, sr := 0#8, i := 0, mu := .c1 }

/-- Byte j of a wire word (42_transmitter R180). -/
def wireByte (w : WireWord) : Nat → Byte
  | 0 => w.brightness
  | 1 => w.blue
  | 2 => w.green
  | _ => w.red

/-- Byte j of ws[p]. -/
def loadByte (ws : List WireWord) (p j : Nat) : Byte :=
  match ws[p]? with
  | some w => wireByte w j
  | none => 0#8

/-- The line operation of a micro-step. -/
def Micro.op (d : Nat) : Micro → LineOp
  | .c1 => .write .clock true
  | .w1 => .wait d
  | .c0 => .write .clock false
  | .w2 => .wait d

/-- The micro-step after one; none after W2. -/
def Micro.next : Micro → Option Micro
  | .c1 => some .w1
  | .w1 => some .c0
  | .c0 => some .w2
  | .w2 => none

/-- A PULSE's micro-step: its operation, and either the next micro-step or what follows W2. -/
def Counter.pulse (d : Nat) (c afterW2 : Counter) : Option LineOp × Counter :=
  (some (c.mu.op d),
    match c.mu.next with
    | some mu => { c with mu := mu }
    | none => { afterW2 with mu := .c1 })

/-- After the last micro-step of START_P. -/
def Counter.afterStartPulse (cfg : Config) (c : Counter) : Counter :=
  if c.k + 1 = cfg.startPulses then { c with k := c.k + 1, p := 0, j := 0, phase := .load }
  else { c with k := c.k + 1 }

/-- After the last micro-step of BIT_P. -/
def Counter.afterBit (cfg : Config) (c : Counter) : Counter :=
  let c' := { c with sr := (c.sr <<< 1) &&& 0xFF#8, i := c.i - 1 }
  if 0 < c'.i then { c' with phase := .bitD }
  else if c'.j < 3 then { c' with j := c'.j + 1, phase := .load }
  else if c'.p < cfg.nPixels - 1 then { c' with p := c'.p + 1, j := 0, phase := .load }
  else { c' with phase := .endD }

/-- After the last micro-step of END_P. -/
def Counter.afterEndPulse (cfg : Config) (c : Counter) : Counter :=
  if c.k + 1 = cfg.endPulses then { c with k := c.k + 1, phase := .done } else { c with k := c.k + 1 }

/-- The form's next line operation, if any, and the registers after it succeeds. LOAD and DONE attempt none
(42_transmitter R180). -/
def Counter.next (cfg : Config) (ws : List WireWord) (c : Counter) : Option LineOp × Counter :=
  match c.phase with
  | .startD => (some (.write .data false), { c with k := 0, phase := .startP })
  | .startP => c.pulse cfg.delay (c.afterStartPulse cfg)
  | .load => (none, { c with sr := loadByte ws c.p c.j, i := 8, phase := .bitD })
  | .bitD => (some (.write .data (c.sr.getLsbD 7)), { c with phase := .bitP })
  | .bitP => c.pulse cfg.delay (c.afterBit cfg)
  | .endD => (some (.write .data false), { c with k := 0, phase := .endP })
  | .endP => c.pulse cfg.delay (c.afterEndPulse cfg)
  | .done => (none, c)

/-- The line operations the form attempts in `n` steps, when each succeeds. -/
def Counter.ops (cfg : Config) (ws : List WireWord) : Nat → Counter → List LineOp
  | 0, _ => []
  | n + 1, c =>
    match c.next cfg ws with
    | (some op, c') => op :: Counter.ops cfg ws n c'
    | (none, c') => Counter.ops cfg ws n c'

/-- The registers after `n` steps, when each operation succeeds. -/
def Counter.run (cfg : Config) (ws : List WireWord) : Nat → Counter → Counter
  | 0, c => c
  | n + 1, c => Counter.run cfg ws n (c.next cfg ws).2

/-! ### The form in the block -/

/-- The place of a micro-step in its PULSE. -/
def Micro.index : Micro → Nat
  | .c1 => 0
  | .w1 => 1
  | .c0 => 2
  | .w2 => 3

/-- The index in SEQ of the operation the form attempts next, by the position table (42_transmitter R175). -/
def Counter.position (cfg : Config) (c : Counter) : Nat :=
  let bits := 1 + 4 * cfg.startPulses
  let bit := bits + 5 * (32 * c.p + 8 * c.j + (8 - c.i))
  let last := bits + 5 * (32 * cfg.nPixels)
  match c.phase with
  | .startD => 0
  | .startP => 1 + 4 * c.k + c.mu.index
  | .load => bits + 5 * (32 * c.p + 8 * c.j)
  | .bitD => bit
  | .bitP => bit + 1 + c.mu.index
  | .endD => last
  | .endP => last + 1 + 4 * c.k + c.mu.index
  | .done => last + 1 + 4 * cfg.endPulses

/-- One step of the form in a block that runs a display of `ws` (42_transmitter R180): its line operation, with the abort of
R171 at the operation's index when a LineWrite fails; LOAD moves the registers alone; DONE is `tx <- IDLE; respond(Ok)`. The
registers stand for the position, so `tx` only says that the display runs. -/
def Counter.step (ws : List WireWord) (s : State) (c : Counter) : State × Counter :=
  match c.next s.cfg ws with
  | (some (.write line v), c') =>
    if s.nextAnswer then (s.lineWrite line v, c') else ((s.lineWrite line v).abortAt (c.position s.cfg) line, c')
  | (some (.wait d), c') => (s.record (.wait d), c')
  | (none, c') =>
    match c.phase with
    | .done => (s.completeDisplay, c')
    | _ => (s, c')

/-- The block after at most `n` steps of the form, none once its display has ended. -/
def Counter.runBlock (ws : List WireWord) : Nat → State → Counter → State
  | 0, s, _ => s
  | n + 1, s, c =>
    match s.tx with
    | .idle => s
    | .busy _ _ _ => Counter.runBlock ws n (Counter.step ws s c).1 (Counter.step ws s c).2

end Sys2Proof.Machine
end

