-- ==== Sys2Proof/Machine/Observe.lean ====
section
/-! DEFINITION. What is seen from outside (42_transmitter R181): the trace and its tokens, and what a list of line
operations shows on the two lines (30_encoding R75, 42_transmitter R174, R175, 70_reset_and_hazards R234). -/

namespace Sys2Proof.Machine

/-! ### Tokens (30_encoding R83) -/

/-- Whether a token is a LineWrite attempt; the trace of R181 holds these only. -/
def Token.isWrite : Token → Bool
  | .write _ _ _ => true
  | .wait _ => false

/-- The trace: the ordered LineWrite attempts (42_transmitter R181). -/
def State.trace (s : State) : List Token := s.log.filter Token.isWrite

/-- The token of a line operation that succeeds. -/
def okToken : LineOp → Token
  | .write line v => .write line v true
  | .wait d => .wait d

/-- The spelling of a token (30_encoding R83). -/
def Token.text : Token → String
  | .write line v ok =>
    (match line with
      | .data => "D"
      | .clock => "C") ++ (if v then "1" else "0") ++ (if ok then "" else "!")
  | .wait _ => "W"

/-! ### Line operations as they show on the lines -/

/-- Whether a line operation is a LineWrite. -/
def isWrite : LineOp → Bool
  | .write _ _ => true
  | .wait _ => false

/-- Whether a line operation is LineWrite(line, v). -/
def isWriteOf (line : Line) (v : Bool) (op : LineOp) : Bool :=
  decide (op = .write line v)

/-- The value last written to a line, if any. -/
def lastWrite (line : Line) : List LineOp → Option Bool
  | [] => none
  | op :: rest =>
    match lastWrite line rest, op with
    | some v, _ => some v
    | none, .write l v => if l = line then some v else none
    | none, .wait _ => none

/-- The number of clock pulses, counted by their LineWrite(CLOCK, 1) (00_scope glossary). -/
def pulses (ops : List LineOp) : Nat := ops.countP (isWriteOf .clock true)

/-- DATA at each pulse, in order; `dat` is the value before the first operation (30_encoding R75). -/
def dataAtPulses : Bool → List LineOp → List Bool
  | _, [] => []
  | _, .write .data v :: rest => dataAtPulses v rest
  | dat, .write .clock true :: rest => dat :: dataAtPulses dat rest
  | dat, .write .clock false :: rest => dataAtPulses dat rest
  | dat, .wait _ :: rest => dataAtPulses dat rest

/-- The rising edges of the clock line when every write succeeds and the line physically stands at `clk` before the first
(70_reset_and_hazards R234). -/
def risingEdges : Bool → List LineOp → Nat
  | _, [] => 0
  | clk, .write .clock v :: rest => (if v && !clk then 1 else 0) + risingEdges v rest
  | clk, .write .data _ :: rest => risingEdges clk rest
  | clk, .wait _ :: rest => risingEdges clk rest

/-! ### The maps of the spec, for its 8 slots, 32 start pulses and 36 end pulses -/

/-- Bit (31 - m mod 32) of the word of slot m div 32: pixel bit m of a display (30_encoding R75). -/
def pixelBit (ws : List WireWord) (m : Nat) : Bool :=
  match ws[m / 32]? with
  | some w => w.toWord.getLsbD (31 - m % 32)
  | none => false

/-- DATA at pulse k of a display, by the bit-cell map (30_encoding R75). -/
def cellMap (ws : List WireWord) (k : Nat) : Bool :=
  if 32 ≤ k ∧ k ≤ 287 then pixelBit ws (k - 32) else false

/-- Operation j = 0..3 of a PULSE (42_transmitter R162). -/
def pulseOpAt (d : Nat) : Nat → LineOp
  | 0 => .write .clock true
  | 1 => .wait d
  | 2 => .write .clock false
  | _ => .wait d

/-- The operation at index q of a display of eight pixels, by the position table (42_transmitter R175). -/
def positionMap (d : Nat) (ws : List WireWord) (q : Nat) : Option LineOp :=
  if q = 0 then some (.write .data false)
  else if q < 129 then some (pulseOpAt d ((q - 1) % 4))
  else if q < 1409 then
    if (q - 129) % 5 = 0 then some (.write .data (pixelBit ws ((q - 129) / 5)))
    else some (pulseOpAt d ((q - 129) % 5 - 1))
  else if q = 1409 then some (.write .data false)
  else if q < 1554 then some (pulseOpAt d ((q - 1410) % 4))
  else none

end Sys2Proof.Machine
end

