-- ==== Sys2Proof/Safety.lean ====
section
/-! DEFINITION. Runs, and what holds in every state of a run: the invariants that statements use as premises. -/

namespace Sys2Proof.Machine

/-- `n` steps, stopping at the first fault or refusal. -/
def runFor : Nat → State → Host.Outcome State Fault Refusal
  | 0, s => .next s
  | n + 1, s =>
    match step s with
    | .next t => runFor n t
    | .fault r => .fault r
    | .refused r => .refused r

/-- The line environment's answer to the attempt `k` attempts after the next one: from `answers` while they last, then the
free value (log entry 2). -/
def State.answerAt (s : State) (k : Nat) : Bool :=
  match s.answers[k]? with
  | some ok => ok
  | none => Config.lineOracle (s.attempts + k)

/-- The parts of the block that no step of a running display writes: life, the buffer, the configuration, and the model's
`inbox` and `grain` (20_memory R60, 10_state R31). -/
structure SameBlock (s t : State) : Prop where
  life : t.life = s.life
  buf : t.buf = s.buf
  cfg : t.cfg = s.cfg
  inbox : t.inbox = s.inbox
  grain : t.grain = s.grain

/-- There are N_PIXELS slots, and every brightness in them is a value of BFMT (10_state R21, R22). -/
structure BufOk (cfg : Config) (buf : List Pixel) : Prop where
  length : buf.length = cfg.nPixels
  pixels : ∀ p ∈ buf, p.wf cfg.bfmt = true

/-- A construction the host may ask for: its initial slots are N_PIXELS Pixels of the format it is
given (10_state R34). -/
def itemOk : HostItem → Prop
  | .construct cfg _ _ initBuf => BufOk cfg initBuf
  | _ => True

/-- A latch agrees with the operations done so far: it holds the value last written; before the first write of CLOCK it is
not L1 (70_reset_and_hazards R234). -/
def latchOk (line : Line) (done : List LineOp) (level : Level) : Prop :=
  match lastWrite line done with
  | some v => level = levelOf v
  | none => line = .clock → level ≠ .l1

/-- The sequencer's invariant: while IDLE the clock latch is never L1 (70_reset_and_hazards R234); while BUSY the block is
LIVE, `seq` is the display sequence of N_PIXELS words and pc is within it (10_state R26), and both latches agree with the
operations before pc. -/
def txOk (s : State) : Prop :=
  match s.tx with
  | .idle => s.clk ≠ .l1
  | .busy seq pc _ =>
    s.life = .live ∧ pc ≤ seq.length ∧ (∃ ws : List WireWord, ws.length = s.cfg.nPixels ∧ seq = displayOps s.cfg ws) ∧
      latchOk .clock (seq.take pc) s.clk ∧ latchOk .data (seq.take pc) s.dat

/-- The invariant of the machine's runs at the spec's grain, one line operation per step. -/
structure Inv (s : State) : Prop where
  opGrain : s.grain = .op
  slots : BufOk s.cfg s.buf
  items : ∀ item ∈ s.inbox, itemOk item
  tx : txOk s

end Sys2Proof.Machine
end

