-- ==== Sys2Proof/Certificates/Slice0/Obligations.lean ====
section
/-! DEFINITION. The statements for the provers, each from the rules of spec/ that its docstring names. Where a number of the
spec stands in a statement (8 slots, 32 and 36 pulses, 31, 0xE0, 0x1F), the configuration is one with the source's literals
(00_scope R17); OnlyConstructionWritesConfiguration says that a run keeps it so. -/

open Sys2Proof Sys2Proof.Machine

/-! ### Commands of the port -/

/-- 41_pixel_buffer R131: SET is spelled 0x01, the index as u32, red, green, blue and the brightness. On a LIVE, IDLE block
it writes the slot of an index 0..7, the pixel as given, writes nothing for any index of 8 or more, and responds
Ok(accepted), binary 00 01 or 00 00. Nothing else changes. -/
def Obligations.SetWritesMappedSlotAndReports : Prop :=
  (∀ (cfg : Config) (i3 i2 i1 i0 : Byte) (pixel : Pixel), pixel.brightness.fmt = cfg.bfmt →
    decode cfg (.cmd ([0x01#8, i3, i2, i1, i0, pixel.red, pixel.green, pixel.blue] ++ encodeBVal pixel.brightness)) =
      .ok (.set (i3 ++ i2 ++ i1 ++ i0 : Word).toNat pixel)) ∧
  (∀ (index : Nat) (pixel : Pixel) (s : State), s.cfg.SourceLiterals → s.life = .live → s.tx = .idle →
    exec (.set index pixel) s = .next { s with
      buf := if index < 8 then s.buf.set index pixel else s.buf
      resp := some (.set (decide (index < 8)))
      delivered := s.delivered ++ [.set (decide (index < 8))] }) ∧
  Response.bytes (.set true) = [0x00#8, 0x01#8] ∧ Response.bytes (.set false) = [0x00#8, 0x00#8]

/-- 41_pixel_buffer R132: a SET that completes on an IDLE block puts the pixel into exactly the slot of its index, every
other slot keeps its pixel, an index of 8 or more changes none, and no other instruction than SET and CLEAR_ALL changes any
slot. -/
def Obligations.OnlySetAndClearAllChangeSlots : Prop :=
  (∀ (index : Nat) (pixel : Pixel) (s t : State), s.cfg.SourceLiterals → s.buf.length = s.cfg.nPixels → s.tx = .idle →
    exec (.set index pixel) s = .next t → ∀ j, readSlot t.buf j = if j = index ∧ j < 8 then some pixel else readSlot s.buf j) ∧
  (∀ (i : Instr) (s t : State), (∀ index pixel, i ≠ .set index pixel) → i ≠ .clearAll → exec i s = .next t →
    t.buf = s.buf)

/-- 41_pixel_buffer R130: SIZE, spelled 0x04, responds Ok(8), binary 00 00 00 00 08, and changes nothing but the
response. -/
def Obligations.SizeRespondsEight : Prop :=
  (∀ cfg, decode cfg (.cmd [0x04#8]) = .ok .size) ∧
  (∀ s : State, s.cfg.SourceLiterals → s.life = .live → s.tx = .idle →
    exec .size s = .next { s with resp := some (.size 8), delivered := s.delivered ++ [.size 8] }) ∧
  Response.bytes (.size 8) = [0x00#8, 0x00#8, 0x00#8, 0x00#8, 0x08#8]

/-- 41_pixel_buffer R134: SNAPSHOT, spelled 0x05, responds the eight encoded slots, slot 0 first, and changes nothing but
the response. -/
def Obligations.SnapshotRespondsSlotWordsInOrder : Prop :=
  (∀ cfg, decode cfg (.cmd [0x05#8]) = .ok .snapshot) ∧
  (∀ s : State, s.cfg.SourceLiterals → s.buf.length = s.cfg.nPixels → s.life = .live → s.tx = .idle →
    ∃ words : List Word, words.length = 8 ∧
      (∀ k, words[k]? = (readSlot s.buf k).map fun p => (encodePixel s.cfg p).toWord) ∧
      exec .snapshot s = .next { s with
        resp := some (.snapshot words), delivered := s.delivered ++ [.snapshot words] })

/-- 40_pixel_model R107: ENCODE is spelled 0x06, red, green, blue and the brightness. It responds the encoder's word of its
operand, whatever the buffer holds, and changes nothing but the response; ENCODE 0, 0, 0, 0.0 responds 00 E0 00 00 00. -/
def Obligations.EncodeCommandRespondsWord : Prop :=
  (∀ (cfg : Config) (pixel : Pixel), pixel.brightness.fmt = cfg.bfmt →
    decode cfg (.cmd ([0x06#8, pixel.red, pixel.green, pixel.blue] ++ encodeBVal pixel.brightness)) =
      .ok (.encode pixel)) ∧
  (∀ (pixel : Pixel) (s : State), s.life = .live → s.tx = .idle →
    exec (.encode pixel) s = .next { s with
      resp := some (.encoded (encodePixel s.cfg pixel).toWord)
      delivered := s.delivered ++ [.encoded (encodePixel s.cfg pixel).toWord] }) ∧
  (∀ cfg : Config, cfg.SourceLiterals →
    Response.bytes (.encoded (encodePixel cfg (off cfg.bfmt)).toWord) = [0x00#8, 0xE0#8, 0x00#8, 0x00#8, 0x00#8])

/-- 30_encoding R81, 60_exceptions R204: the opcodes 0x00 and 0x07 to 0xFF spell no command of the port; on a LIVE, IDLE
block they change no state but the response, which is IllegalCommand, binary 03. -/
def Obligations.ReservedOpcodeRespondsIllegal : Prop :=
  (∀ cfg (opcode : Byte), opcode = 0x00#8 ∨ 0x07 ≤ opcode.toNat →
    decode cfg (.cmd [opcode]) = .ok (.reservedCmd opcode)) ∧
  (∀ (opcode : Byte) (s : State), s.life = .live → s.tx = .idle →
    exec (.reservedCmd opcode) s = .next { s with
      resp := some .illegalCommand, delivered := s.delivered ++ [.illegalCommand] }) ∧
  Response.bytes .illegalCommand = [0x03#8]

/-- 41_pixel_buffer R133: CLEAR_ALL, spelled 0x02, makes every slot OFF and starts exactly one display, of eight words
0xE0000000, at position 0; no line is written and nothing is responded yet. -/
def Obligations.ClearAllClearsThenStartsDisplay : Prop :=
  (∀ cfg, decode cfg (.cmd [0x02#8]) = .ok .clearAll) ∧
  ∀ s : State, s.cfg.SourceLiterals → s.life = .live → s.tx = .idle →
    exec .clearAll s = .next { s with
      buf := List.replicate 8 (off s.cfg.bfmt)
      tx := .busy (displayOps s.cfg (List.replicate 8 (WireWord.ofWord 0xE0000000#32))) 0 .clearAll }

/-- 42_transmitter R169: DISPLAY, spelled 0x03, latches SEQ of the eight encoded slots, in slot order, at position 0; the
buffer is not written. -/
def Obligations.DisplayLatchesEncodedBuffer : Prop :=
  (∀ cfg, decode cfg (.cmd [0x03#8]) = .ok .display) ∧
  ∀ s : State, s.cfg.SourceLiterals → s.buf.length = s.cfg.nPixels → s.life = .live → s.tx = .idle →
    ∃ ws : List WireWord, ws.length = 8 ∧ (∀ k, ws[k]? = (readSlot s.buf k).map (encodePixel s.cfg)) ∧
      exec .display s = .next { s with tx := .busy (displayOps s.cfg ws) 0 .display }

/-- A command presented when life is ABSENT or RELEASED is refused; one presented while BUSY is no error and is held
(60_exceptions R205, 10_state R28). What held means of exec (it answers the same state) and of a step while BUSY (it leaves
what the host presents where it is) is the model's reading, log entry 12. -/
def Obligations.CommandsHeldWhileBusyRefusedWhenNotLive : Prop :=
  (∀ (i : Instr) (s : State), i.isCommand = true → s.life ≠ .live → exec i s = .refused .notLive) ∧
  (∀ (i : Instr) (s : State), i.isCommand = true → s.life = .live → s.tx ≠ .idle → exec i s = .next s) ∧
  (∀ s t : State, s.tx ≠ .idle → step s = .next t → t.inbox = s.inbox)

/-- 60_exceptions R201: SET, SIZE, SNAPSHOT and ENCODE, whatever their operands and whatever the buffer holds, complete with
code 0. -/
def Obligations.QueriesAndSetReportOk : Prop :=
  ∀ (i : Instr) (s : State), ((∃ index pixel, i = .set index pixel) ∨ i = .size ∨ i = .snapshot ∨ ∃ pixel, i = .encode pixel) →
    s.life = .live → s.tx = .idle →
    ∃ t r, exec i s = .next t ∧ t.resp = some r ∧ r.code = .ok ∧ r.bytes.head? = some 0x00#8

/-- Frame of SIZE, SNAPSHOT, ENCODE and a reserved opcode (20_memory R55, 10_state R23): on every state where they answer a
next state, only the response (and its delivery) may differ. -/
def Obligations.ResponseOnlyCommandFrame : Prop :=
  ∀ (i : Instr) (s t : State),
    (i = .size ∨ i = .snapshot ∨ (∃ pixel, i = .encode pixel) ∨ ∃ opcode, i = .reservedCmd opcode) →
    exec i s = .next t →
    t.life = s.life ∧ t.buf = s.buf ∧ t.clk = s.clk ∧ t.dat = s.dat ∧ t.tx = s.tx ∧ t.cfg = s.cfg ∧ t.inbox = s.inbox ∧
      t.answers = s.answers ∧ t.attempts = s.attempts ∧ t.log = s.log ∧ t.grain = s.grain

/-- Frame of SET (41_pixel_buffer R131, R132): only the slot of its index and the response may differ; no line
operation. -/
def Obligations.SetFrame : Prop :=
  ∀ (index : Nat) (pixel : Pixel) (s t : State), exec (.set index pixel) s = .next t →
    (∀ j, j ≠ index → readSlot t.buf j = readSlot s.buf j) ∧
    t.life = s.life ∧ t.clk = s.clk ∧ t.dat = s.dat ∧ t.tx = s.tx ∧ t.cfg = s.cfg ∧ t.inbox = s.inbox ∧
      t.answers = s.answers ∧ t.attempts = s.attempts ∧ t.log = s.log ∧ t.grain = s.grain

/-- Frame of CLEAR_ALL and DISPLAY at acceptance (42_transmitter R169, 41_pixel_buffer R133): only the sequencer, and for
CLEAR_ALL the buffer, may differ; no line operation and no response yet. -/
def Obligations.DisplayCommandFrame : Prop :=
  ∀ (i : Instr) (s t : State), (i = .display ∨ i = .clearAll) → exec i s = .next t →
    (i = .display → t.buf = s.buf) ∧
    t.life = s.life ∧ t.clk = s.clk ∧ t.dat = s.dat ∧ t.resp = s.resp ∧ t.cfg = s.cfg ∧ t.inbox = s.inbox ∧
      t.answers = s.answers ∧ t.attempts = s.attempts ∧ t.log = s.log ∧ t.delivered = s.delivered ∧ t.grain = s.grain

/-! ### Line operations and the transmitter's step -/

/-- 42_transmitter R170: a LineWrite at pc that the environment answers with ok records the event, drives the line's latch,
and moves pc on by one; BUSY stays true. -/
def Obligations.SuccessfulLineWriteStep : Prop :=
  ∀ (s : State) (seq : List LineOp) (pc : Nat) (origin : Origin) (line : Line) (v : Bool),
    s.life = .live → s.grain = .op → s.tx = .busy seq pc origin → seq[pc]? = some (.write line v) →
    s.nextAnswer = true →
    ∃ t, step s = .next t ∧ t = { s with
      clk := if line = .clock then levelOf v else s.clk
      dat := if line = .data then levelOf v else s.dat
      tx := .busy seq (pc + 1) origin
      answers := s.answers.tail
      attempts := s.attempts + 1
      log := s.log ++ [.write line v true] } ∧ t.busy = true

/-- 42_transmitter R171: a LineWrite at pc that the environment answers with fail records the event, makes the line's latch
UNKNOWN, returns the transmitter to IDLE and responds LineWriteFailed(pc, line); the buffer is unchanged. -/
def Obligations.FailedLineWriteStepAborts : Prop :=
  ∀ (s : State) (seq : List LineOp) (pc : Nat) (origin : Origin) (line : Line) (v : Bool),
    s.life = .live → s.grain = .op → s.tx = .busy seq pc origin → seq[pc]? = some (.write line v) →
    s.nextAnswer = false →
    step s = .next { s with
      clk := if line = .clock then .unknown else s.clk
      dat := if line = .data then .unknown else s.dat
      tx := .idle
      resp := some (.lineWriteFailed pc line)
      answers := s.answers.tail
      attempts := s.attempts + 1
      log := s.log ++ [.write line v false]
      delivered := s.delivered ++ [.lineWriteFailed pc line] }

/-- 42_transmitter R172: a Wait at pc moves pc on by one; its token is recorded. -/
def Obligations.WaitStepMovesPosition : Prop :=
  ∀ (s : State) (seq : List LineOp) (pc : Nat) (origin : Origin) (d : Nat),
    s.life = .live → s.grain = .op → s.tx = .busy seq pc origin → seq[pc]? = some (.wait d) →
    step s = .next { s with tx := .busy seq (pc + 1) origin, log := s.log ++ [.wait d] }

/-- 42_transmitter R173: at pc = len(seq) the step makes the transmitter IDLE and responds Ok, binary 00, whichever command
started the display; BUSY becomes false. -/
def Obligations.CompletionStepRespondsOk : Prop :=
  (∀ (s : State) (seq : List LineOp) (origin : Origin), s.tx = .busy seq seq.length origin →
    ∃ t, step s = .next t ∧ t = { s with
      tx := .idle, resp := some .done, delivered := s.delivered ++ [.done] } ∧ t.busy = false) ∧
  Response.bytes .done = [0x00#8]

/-- 42_transmitter R160, R161, R170 to R172: SETDATA v, SETCLK v and WAIT d as instructions of a LIVE block with a display
running: each answers the next state of the line operation, for either answer of the environment. That it does so also where
it is not the operation at pc, the condition of R170 to R172, is the model's choice, log entry 28. -/
def Obligations.LineInstructionsComplete : Prop :=
  ∀ (s : State) (seq : List LineOp) (pc : Nat) (origin : Origin), s.life = .live → s.tx = .busy seq pc origin →
    (∀ v, s.nextAnswer = true → exec (.setData v) s = .next { s with
      dat := levelOf v, tx := .busy seq (pc + 1) origin, answers := s.answers.tail, attempts := s.attempts + 1,
      log := s.log ++ [.write .data v true] }) ∧
    (∀ v, s.nextAnswer = false → exec (.setData v) s = .next { s with
      dat := .unknown, tx := .idle, resp := some (.lineWriteFailed pc .data), answers := s.answers.tail,
      attempts := s.attempts + 1, log := s.log ++ [.write .data v false],
      delivered := s.delivered ++ [.lineWriteFailed pc .data] }) ∧
    (∀ v, s.nextAnswer = true → exec (.setClk v) s = .next { s with
      clk := levelOf v, tx := .busy seq (pc + 1) origin, answers := s.answers.tail, attempts := s.attempts + 1,
      log := s.log ++ [.write .clock v true] }) ∧
    (∀ v, s.nextAnswer = false → exec (.setClk v) s = .next { s with
      clk := .unknown, tx := .idle, resp := some (.lineWriteFailed pc .clock), answers := s.answers.tail,
      attempts := s.attempts + 1, log := s.log ++ [.write .clock v false],
      delivered := s.delivered ++ [.lineWriteFailed pc .clock] }) ∧
    (∀ d, exec (.wait d) s = .next { s with
      tx := .busy seq (pc + 1) origin, log := s.log ++ [.wait d] })

/-- Frame of the line operations (10_state R25, 42_transmitter R160, R161): the other line's latch, the buffer, life, the
configuration and what the host presents are unchanged; WAIT writes no latch and asks the environment nothing. -/
def Obligations.LineOperationFrame : Prop :=
  ∀ (s t : State),
    (∀ v, exec (.setData v) s = .next t → t.clk = s.clk ∧ SameBlock s t) ∧
    (∀ v, exec (.setClk v) s = .next t → t.dat = s.dat ∧ SameBlock s t) ∧
    (∀ d, exec (.wait d) s = .next t → t.clk = s.clk ∧ t.dat = s.dat ∧ t.resp = s.resp ∧ t.answers = s.answers ∧
      t.attempts = s.attempts ∧ t.delivered = s.delivered ∧ SameBlock s t)

/-- Where a line operation or a wire frame does not run as a display's: a block that is not LIVE refuses it (60_exceptions
R205, 20_memory R64), and with no display running a LineWrite has its effect on the line and a Wait none, with no position
to move and no command to answer (42_transmitter R160, R161; the model's choice, log entry 11). -/
def Obligations.LineInstructionsOutsideADisplay : Prop :=
  (∀ (i : Instr) (s : State), i.isCommand = false → s.life ≠ .live → exec i s = .refused .notLive) ∧
  (∀ s : State, s.life = .live → s.tx = .idle →
    (∀ v, exec (.setData v) s = .next { s with
      dat := if s.nextAnswer then levelOf v else .unknown, answers := s.answers.tail, attempts := s.attempts + 1,
      log := s.log ++ [.write .data v s.nextAnswer] }) ∧
    (∀ v, exec (.setClk v) s = .next { s with
      clk := if s.nextAnswer then levelOf v else .unknown, answers := s.answers.tail, attempts := s.attempts + 1,
      log := s.log ++ [.write .clock v s.nextAnswer] }) ∧
    (∀ d, exec (.wait d) s = .next { s with log := s.log ++ [.wait d] }))

/-! ### Wire frames -/

/-- 42_transmitter R163, 30_encoding R73: START_FRAME, with its 65 LineWrites answered ok, sends DATA 0 once and 32 pulses,
in order, and leaves both lines low. The model's choices, log entries 10 (a frame as one instruction) and 28 (where it does
not stand at pc). -/
def Obligations.StartFrameSendsThirtyTwoPulses : Prop :=
  ∀ (s : State) (seq : List LineOp) (pc : Nat) (origin : Origin),
    s.cfg.SourceLiterals → s.life = .live → s.tx = .busy seq pc origin → (∀ j < 65, s.answerAt j = true) →
    exec .startFrame s = .next { s with
      clk := .l0, dat := .l0, tx := .busy seq (pc + 129) origin, answers := s.answers.drop 65, attempts := s.attempts + 65,
      log := s.log ++ .write .data false true :: (List.replicate 32
        [.write .clock true true, .wait s.cfg.delay, .write .clock false true, .wait s.cfg.delay]).flatten }

/-- 42_transmitter R164 to R166, 30_encoding R71: LED_FRAME, with its 96 LineWrites answered ok, sends the 32 bits
111, level, blue, green, red, most significant first, each as DATA then one pulse, and leaves the clock low and DATA at the
last bit. The model's choices: log entries 10 and 28. -/
def Obligations.LedFrameSendsThirtyTwoBits : Prop :=
  ∀ (s : State) (seq : List LineOp) (pc : Nat) (origin : Origin) (level : BrightLevel) (blue green red : Byte),
    s.cfg.SourceLiterals → s.life = .live → s.tx = .busy seq pc origin → (∀ j < 96, s.answerAt j = true) →
    exec (.ledFrame level blue green red) s = .next { s with
      clk := .l0, dat := levelOf (red.getLsbD 0), tx := .busy seq (pc + 160) origin, answers := s.answers.drop 96,
      attempts := s.attempts + 96,
      log := s.log ++ (List.range 32).flatMap fun k =>
        [.write .data ((0b111#3 ++ level ++ blue ++ green ++ red : Word).getLsbD (31 - k)) true,
          .write .clock true true, .wait s.cfg.delay, .write .clock false true, .wait s.cfg.delay] }

/-- 42_transmitter R167, 30_encoding R74: END_FRAME, with its 73 LineWrites answered ok, sends DATA 0 once and 36 pulses,
in order, and leaves both lines low. The model's choices: log entries 10 and 28. -/
def Obligations.EndFrameSendsThirtySixPulses : Prop :=
  ∀ (s : State) (seq : List LineOp) (pc : Nat) (origin : Origin),
    s.cfg.SourceLiterals → s.life = .live → s.tx = .busy seq pc origin → (∀ j < 73, s.answerAt j = true) →
    exec .endFrame s = .next { s with
      clk := .l0, dat := .l0, tx := .busy seq (pc + 145) origin, answers := s.answers.drop 73, attempts := s.attempts + 73,
      log := s.log ++ .write .data false true :: (List.replicate 36
        [.write .clock true true, .wait s.cfg.delay, .write .clock false true, .wait s.cfg.delay]).flatten }

/-- 42_transmitter R171 inside a wire frame: when the environment answers ok to the frame's LineWrites before operation k,
a LineWrite, and fail to that one, the frame stops there: operations 0 to k-1 are recorded ok, operation k failed, nothing
after it is attempted, and the response is LineWriteFailed with the operation's position. The model's choices: log entries
10 and 28. -/
def Obligations.WireFrameStopsAtFirstFailure : Prop :=
  ∀ (i : Instr) (ops : List LineOp) (s : State) (seq : List LineOp) (pc k n : Nat) (origin : Origin) (line : Line)
    (v : Bool),
    ((i = .startFrame ∧ ops = startOps s.cfg) ∨ (i = .endFrame ∧ ops = endOps s.cfg) ∨
      ∃ level blue green red, i = .ledFrame level blue green red ∧
        ops = wordOps s.cfg.delay (ledFrameWord s.cfg level blue green red)) →
    s.life = .live → s.tx = .busy seq pc origin → ops[k]? = some (.write line v) →
    n = (ops.take k).countP isWrite → (∀ j < n, s.answerAt j = true) → s.answerAt n = false →
    ∃ t, exec i s = .next t ∧ t.tx = .idle ∧ t.resp = some (.lineWriteFailed (pc + k) line) ∧
      t.latch line = .unknown ∧ t.attempts = s.attempts + (n + 1) ∧
      t.log = s.log ++ (ops.take k).map okToken ++ [.write line v false] ∧ SameBlock s t

/-- Frame of the wire frames (42_transmitter R179, 10_state R23): on every state, whatever the environment answers, the
buffer, life, the configuration and what the host presents are unchanged. -/
def Obligations.WireFrameFrame : Prop :=
  ∀ (i : Instr) (s t : State), (i = .startFrame ∨ i = .endFrame ∨ ∃ level blue green red, i = .ledFrame level blue green red) →
    exec i s = .next t → SameBlock s t ∧ (∃ toks, t.log = s.log ++ toks)

/-! ### What a step runs -/

/-- When the command the host presents next decodes to an instruction, the step of an IDLE block is exec of it, with that
item taken (00_scope R19, 20_memory R58). So it is when the host presents a command of the abstract record (30_encoding R78),
a SET of any index (R80); a record that is no such command is refused (R81). The two ways to present a command are the
model's, log entries 7 and 27. -/
def Obligations.StepRunsPresentedCommand : Prop :=
  (∀ (s : State) (bytes : List Byte) (rest : List HostItem) (i : Instr),
    s.tx = .idle → s.inbox = .command bytes :: rest → decode s.cfg (.cmd bytes) = .ok i →
    step s = exec i { s with inbox := rest }) ∧
  (∀ (s : State) (rest : List HostItem) (i : Instr), s.tx = .idle → s.inbox = .record i :: rest →
    (i.isRecord s.cfg.bfmt = true → step s = exec i { s with inbox := rest }) ∧
    (i.isRecord s.cfg.bfmt = false → step s = .refused (.badRecord i))) ∧
  (∀ (fmt : BFmt) (index : Nat) (pixel : Pixel), pixel.brightness.fmt = fmt →
    (Instr.set index pixel).isRecord fmt = true)

/-- The step of a block that runs a display is exec of the line operation at pc (42_transmitter R170 to R172). -/
def Obligations.StepRunsLineOperationAtPosition : Prop :=
  ∀ (s : State) (seq : List LineOp) (pc : Nat) (origin : Origin),
    s.grain = .op → s.tx = .busy seq pc origin →
    (∀ v, seq[pc]? = some (.write .data v) → step s = exec (.setData v) s) ∧
    (∀ v, seq[pc]? = some (.write .clock v) → step s = exec (.setClk v) s) ∧
    (∀ d, seq[pc]? = some (.wait d) → step s = exec (.wait d) s)

/-- At frame grain (the model's own, log entry 10) the step of a block whose sequence has a wire frame at pc is exec of
that frame. -/
def Obligations.StepRunsFrameAtPosition : Prop :=
  ∀ (s : State) (seq : List LineOp) (pc : Nat) (origin : Origin) (i : Instr),
    s.grain = .frame → s.tx = .busy seq pc origin → frameAt s.cfg (seq.drop pc) = some i → step s = exec i s

/-- A word of the opcode table, in any format, that decodes to an instruction and is placed by withFetchWord's own placing
is what the next step runs (the model's convention, log entry 16): a command from this state on a LIVE, IDLE block; a line
operation or a wire frame from the placed state itself, which is this state, LIVE, with the code's line operations latched
at pc 0. -/
def Obligations.PlacedCodeRunsNext : Prop :=
  ∀ (s : State) (code : Code) (i : Instr), s.cfg.SourceLiterals → decode s.cfg code = .ok i →
    ((∃ bytes, code = .cmd bytes) → step (s.placeCode code) = exec i { s with life := .live, tx := .idle }) ∧
    ((∀ bytes, code ≠ .cmd bytes) → step (s.placeCode code) = exec i (s.placeCode code) ∧
      ∃ grain, s.placeCode code =
        { s with life := .live, tx := .busy (opsOfCode s.cfg code) 0 .display, grain := grain })

/-- 70_reset_and_hazards R231: with nothing presented the IDLE block waits: a step changes nothing. -/
def Obligations.IdleBlockWaits : Prop :=
  ∀ s : State, s.tx = .idle → s.inbox = [] → step s = .next s

/-! ### Lifecycle -/

/-- 70_reset_and_hazards R230, 60_exceptions R203, 10_state R34: CONSTRUCT_DRIVER with both lines acquired makes a LIVE,
IDLE block with no response, UNKNOWN lines, the drawn buffer and the given configuration, and writes no line; with a line
not acquired life stays ABSENT and the host gets LineAcquireFailed; when life is not ABSENT it is refused. -/
def Obligations.ConstructDriverMakesLiveBlockOrNone : Prop :=
  ∀ (s : State) (cfg : Config) (clkAcquired dataAcquired : Bool) (initBuf : List Pixel) (rest : List HostItem),
    s.tx = .idle → s.inbox = .construct cfg clkAcquired dataAcquired initBuf :: rest →
    (s.life = .absent → clkAcquired = true ∧ dataAcquired = true →
      step s = .next { s with
        life := .live, buf := initBuf, clk := .unknown, dat := .unknown, tx := .idle, resp := none, cfg := cfg,
        inbox := rest }) ∧
    (s.life = .absent → ¬ (clkAcquired = true ∧ dataAcquired = true) →
      step s = .next { s with inbox := rest, delivered := s.delivered ++ [.lineAcquireFailed] }) ∧
    (s.life ≠ .absent → step s = .refused .notAbsent)

/-- 70_reset_and_hazards R232: TEARDOWN of a LIVE, IDLE block makes life RELEASED and changes nothing else; afterwards every
command and every TEARDOWN is refused. -/
def Obligations.TeardownReleasesOnce : Prop :=
  ∀ (s : State) (rest : List HostItem), s.tx = .idle → s.inbox = .teardown :: rest →
    (s.life = .live → step s = .next { s with life := .released, inbox := rest } ∧
      ∀ i : Instr, i.isCommand = true → exec i { s with life := .released, inbox := rest } = .refused .notLive) ∧
    (s.life ≠ .live → step s = .refused .notLive)

/-- 10_state R30: from a step to the next, life changes only from ABSENT to LIVE by a construction and from LIVE to
RELEASED by a teardown, or from RELEASED to ABSENT where the host drops the released block (the model's `renew`, log
entry 13). -/
def Obligations.LifeChangesOnlyByLifecycleSteps : Prop :=
  ∀ s t : State, step s = .next t → t.life ≠ s.life →
    (s.life = .absent ∧ t.life = .live ∧ ∃ cfg initBuf, s.inbox.head? = some (.construct cfg true true initBuf)) ∨
    (s.life = .live ∧ t.life = .released ∧ s.inbox.head? = some .teardown) ∨
    (s.life = .released ∧ t.life = .absent ∧ s.inbox.head? = some .renew)

/-! ### The whole machine -/

/-- The invariant holds after reset: life LIVE, tx IDLE, resp NONE, both latches UNKNOWN and D = 0 are the spec's
(10_state R34), and so are the literals (00_scope R17); the slots and their format are the model's choice (log entries 3,
4). -/
def Obligations.ResetMeetsInvariant : Prop :=
  Inv State.reset ∧ State.reset.life = .live ∧ State.reset.resp = none ∧ State.reset.tx = .idle ∧
    State.reset.clk = .unknown ∧ State.reset.dat = .unknown ∧
    State.reset.cfg.delay = 0 ∧ State.reset.cfg.SourceLiterals

/-- Every step keeps the invariant (10_state R21, R26, 42_transmitter R177, R178, 70_reset_and_hazards R234): from every
state that meets it, in particular, the clock latch is never L1 between commands, and while BUSY the sequence is that of
N_PIXELS words with pc within it and the latches agree with the operations done. -/
def Obligations.StepKeepsInvariant : Prop :=
  ∀ s t : State, Inv s → step s = .next t → Inv t

/-- 10_state R26: no step from a state that meets the invariant faults. -/
def Obligations.NoFaultUnderInvariant : Prop :=
  ∀ (s : State) (r : Fault), Inv s → step s ≠ .fault r

/-- 20_memory R60, 42_transmitter R179: no step while BUSY writes the buffer, the configuration or life, at either grain. -/
def Obligations.BusyStepKeepsBuffer : Prop :=
  ∀ s t : State, s.tx ≠ .idle → step s = .next t → SameBlock s t

/-- 20_memory R55: a step of an IDLE block attempts no LineWrite; the latches change only by a construction. -/
def Obligations.IdleStepDrivesNoLine : Prop :=
  ∀ s t : State, s.tx = .idle → step s = .next t →
    t.log = s.log ∧ t.attempts = s.attempts ∧ t.answers = s.answers ∧
      ((t.clk = s.clk ∧ t.dat = s.dat) ∨ s.life = .absent)

/-- 10_state R27: a step while BUSY at the spec's grain moves pc on by exactly one in the same sequence, or leaves the
sequence for IDLE. -/
def Obligations.PositionMovesByOneOrLeaves : Prop :=
  ∀ (s t : State) (seq : List LineOp) (pc : Nat) (origin : Origin),
    s.grain = .op → s.tx = .busy seq pc origin → step s = .next t →
    (t.tx = .busy seq (pc + 1) origin ∧ pc < seq.length) ∨ t.tx = .idle

/-- 10_state R31: no step but a construction writes the configuration; so the source's literals (00_scope R17) stay while
the host constructs with no others. -/
def Obligations.OnlyConstructionWritesConfiguration : Prop :=
  (∀ s t : State, step s = .next t → t.cfg ≠ s.cfg →
    s.tx = .idle ∧ s.life = .absent ∧ ∃ initBuf, s.inbox.head? = some (.construct t.cfg true true initBuf)) ∧
  (∀ s t : State, s.cfg.SourceLiterals →
    (∀ cfg a b initBuf, .construct cfg a b initBuf ∈ s.inbox → cfg.SourceLiterals) → step s = .next t →
    t.cfg.SourceLiterals ∧ ∀ cfg a b initBuf, .construct cfg a b initBuf ∈ t.inbox → cfg.SourceLiterals)

/-- 10_state R29: `resp` changes only to the response a step delivers, except that a construction makes it NONE; a step
delivers at most one response. -/
def Obligations.ResponseStoredIsResponseDelivered : Prop :=
  ∀ s t : State, step s = .next t →
    (t.resp = s.resp ∧ t.delivered = s.delivered) ∨
    (∃ r, t.resp = some r ∧ t.delivered = s.delivered ++ [r]) ∨
    (s.life = .absent ∧ ((t.resp = s.resp ∧ t.delivered = s.delivered ++ [.lineAcquireFailed]) ∨
      (t.resp = none ∧ t.delivered = s.delivered)))

/-! ### Runs of a display -/

/-- 42_transmitter R163 to R168, R173, R177: a display of any eight words whose 906 LineWrites are all answered ok takes
1554 steps and one to complete: it records SEQ in order, leaves both lines low and responds Ok; the buffer is unchanged. -/
def Obligations.UndisturbedDisplayCompletes : Prop :=
  ∀ (s : State) (ws : List WireWord) (origin : Origin),
    s.cfg.SourceLiterals → s.life = .live → s.grain = .op → ws.length = 8 →
    s.tx = .busy (displayOps s.cfg ws) 0 origin →
    (∀ j < 906, s.answerAt j = true) →
    runFor 1555 s = .next { s with
      clk := .l0, dat := .l0, tx := .idle, resp := some .done, answers := s.answers.drop 906, attempts := s.attempts + 906,
      log := s.log ++ (displayOps s.cfg ws).map okToken, delivered := s.delivered ++ [.done] }

/-- 60_exceptions R206: the abort is precise. When the environment answers ok to every LineWrite before index `op` and
fail to the LineWrite there, then after op + 1 steps the transmitter is IDLE, the response is LineWriteFailed(op, line),
the failing line's latch is UNKNOWN, and the trace is SEQ[0..op-1] all ok, then SEQ[op] failed; nothing else is saved. -/
def Obligations.AbortIsPrecise : Prop :=
  ∀ (s : State) (seq : List LineOp) (op n : Nat) (origin : Origin) (line : Line) (v : Bool),
    s.life = .live → s.grain = .op → s.tx = .busy seq 0 origin → seq[op]? = some (.write line v) →
    n = (seq.take op).countP isWrite → (∀ j < n, s.answerAt j = true) → s.answerAt n = false →
    ∃ t, runFor (op + 1) s = .next t ∧ t.tx = .idle ∧ t.resp = some (.lineWriteFailed op line) ∧
      t.delivered = s.delivered ++ [.lineWriteFailed op line] ∧ t.latch line = .unknown ∧ t.attempts = s.attempts + (n + 1) ∧
      t.log = s.log ++ (seq.take op).map okToken ++ [.write line v false] ∧ SameBlock s t

/-- 70_reset_and_hazards R241: from every state that meets the invariant with a display running, whatever the environment
answers, the display ends by completion or abort within the operations left and one step more. -/
def Obligations.EveryDisplayEnds : Prop :=
  ∀ (s : State) (seq : List LineOp) (pc : Nat) (origin : Origin), Inv s → s.tx = .busy seq pc origin →
    ∃ n t, n ≤ seq.length - pc + 1 ∧ runFor n s = .next t ∧ t.tx = .idle ∧
      (t.resp = some .done ∨ ∃ op line, pc ≤ op ∧ op < seq.length ∧ t.resp = some (.lineWriteFailed op line))

/-- A step at frame grain (the model's own, log entry 10) is a run of steps at the spec's grain: where it answers a next
state, 1 to 160 steps of R170 to R173 from the same state, but for the grain, answer the same. -/
def Obligations.FrameStepIsRunOfLineOperations : Prop :=
  ∀ (s t : State) (seq : List LineOp) (pc : Nat) (origin : Origin),
    s.cfg.SourceLiterals → s.grain = .frame → s.tx = .busy seq pc origin → step s = .next t →
    ∃ k, 1 ≤ k ∧ k ≤ 160 ∧ runFor k { s with grain := .op } = .next { t with grain := .op }

/-- 42_transmitter R176: two displays whose accepted buffers encode to the same words, under the same D and pulse counts,
whose LineWrites the environment answers alike, record the same operations after every number of steps up to their end and,
once ended, respond the same, whatever else differs (the pixels themselves, the latches, earlier responses, attempts and
trace, the command that started them, what the host does next): so do two displays one after the other on one block. Past
their end it is so while the hosts present nothing. -/
def Obligations.DisplayIgnoresHistory : Prop :=
  ∀ (n : Nat) (s t : State) (o o' : Origin),
    s.life = .live → t.life = .live → s.grain = .op → t.grain = .op →
    encodeBuffer s.cfg s.buf = encodeBuffer t.cfg t.buf → s.cfg.delay = t.cfg.delay →
    s.cfg.startPulses = t.cfg.startPulses → s.cfg.endPulses = t.cfg.endPulses →
    (∀ j < (displayOps s.cfg (encodeBuffer s.cfg s.buf)).countP isWrite, s.answerAt j = t.answerAt j) →
    ((∀ m < n, ∃ u, runFor m (s.startDisplay o) = .next u ∧ u.tx ≠ .idle) ∨ (s.inbox = [] ∧ t.inbox = [])) →
    ∃ s' t' toks, runFor n (s.startDisplay o) = .next s' ∧ runFor n (t.startDisplay o') = .next t' ∧
      s'.log = s.log ++ toks ∧ t'.log = t.log ++ toks ∧ s'.busy = t'.busy ∧ (s'.tx = .idle → s'.resp = t'.resp)

/-! ### Encodings -/

/-- 30_encoding R71, R73, R74, R79, R80, R83: every well-formed instruction has a code, and decoding it gives the instruction
back, every operand at every value its encoding admits: every level, and every index up to 2^32 - 1. A SET of a higher index
has none (R80). -/
def Obligations.DecodeInvertsEncode : Prop :=
  (∀ (cfg : Config) (i : Instr), i.wf cfg = true → ∃ code, encode cfg i = some code ∧ decode cfg code = .ok i) ∧
  (∀ (cfg : Config) (level : BrightLevel) (blue green red : Byte), cfg.SourceLiterals →
    (Instr.ledFrame level blue green red).wf cfg = true) ∧
  (∀ (cfg : Config) (index : Nat) (pixel : Pixel), pixel.brightness.fmt = cfg.bfmt →
    ((Instr.set index pixel).wf cfg = true ↔ index < 2 ^ 32) ∧ (2 ^ 32 ≤ index → encode cfg (.set index pixel) = none))

/-- What the decoder accepts is well-formed, and but for the reserved opcodes (whose operand bytes the spec does not give,
log entry 18) has that code and no other (30_encoding R77, R79). -/
def Obligations.EncodeInvertsDecode : Prop :=
  ∀ (cfg : Config) (code : Code) (i : Instr), decode cfg code = .ok i →
    i.wf cfg = true ∧ ((∀ opcode, i ≠ .reservedCmd opcode) → encode cfg i = some code)

/-- Words written out from the spec's encodings (95_test_vectors P2, P3, P4, 30_encoding R71, R83) decode to what they
stand for: SET 7, 0x12, 0x34, 0x56, 0.5; ENCODE 0, 0, 255, 0.75; CLEAR_ALL; DISPLAY; the LED frame 0xEF563412; a start
frame of 32 zeros; an end frame of 36; D1; C0. -/
def Obligations.SampleWordsDecode : Prop :=
  ∀ cfg : Config, cfg.SourceLiterals → cfg.bfmt = .binary32 →
    decode cfg (.cmd [0x01#8, 0x00#8, 0x00#8, 0x00#8, 0x07#8, 0x12#8, 0x34#8, 0x56#8, 0x3F#8, 0x00#8, 0x00#8, 0x00#8]) =
      .ok (.set 7 { red := 0x12#8, green := 0x34#8, blue := 0x56#8, brightness := .b32 0x3F000000#32 }) ∧
    decode cfg (.cmd [0x06#8, 0x00#8, 0x00#8, 0xFF#8, 0x3F#8, 0x40#8, 0x00#8, 0x00#8]) =
      .ok (.encode { red := 0#8, green := 0#8, blue := 0xFF#8, brightness := .b32 0x3F400000#32 }) ∧
    decode cfg (.cmd [0x02#8]) = .ok .clearAll ∧ decode cfg (.cmd [0x03#8]) = .ok .display ∧
    decode cfg (.wire32 0b11101111010101100011010000010010#32) = .ok (.ledFrame 0b01111#5 0x56#8 0x34#8 0x12#8) ∧
    decode cfg (.wireStart (List.replicate 32 false)) = .ok .startFrame ∧
    decode cfg (.wireEnd (List.replicate 36 false)) = .ok .endFrame ∧
    decode cfg (.lineOp 0b01#2) = .ok (.setData true) ∧ decode cfg (.lineOp 0b10#2) = .ok (.setClk false)

/-! ### The pixel model -/

/-- 00_scope R18, 40_pixel_model R102: the product of a significand below 2^p with the scale factor is rounded to a number
q * 2^k with q <= 2^p, to nearest, ties to even; and no bit is dropped that the precision has room for. The source's scale
factor is 31. -/
def Obligations.ProductRoundsToNearestEven : Prop :=
  ∀ (scale p m : Nat), m < 2 ^ p →
    let q := (roundedProduct scale p m).1
    let k := (roundedProduct scale p m).2
    q ≤ 2 ^ p ∧ 2 * (q * 2 ^ k) ≤ 2 * (m * scale) + 2 ^ k ∧ 2 * (m * scale) ≤ 2 * (q * 2 ^ k) + 2 ^ k ∧
      ((2 * (q * 2 ^ k) = 2 * (m * scale) + 2 ^ k ∨ 2 * (m * scale) = 2 * (q * 2 ^ k) + 2 ^ k) → q % 2 = 0) ∧
      (k ≠ 0 → 2 ^ p ≤ 2 * q)

/-- 40_pixel_model R102: on the valid range the level is the truncated float product, at most 31, so the mask never changes
it; 0.0 and -0.0 give 0 and 1.0 gives 31 in both formats. -/
def Obligations.ValidBrightnessLevelIsTruncation : Prop :=
  (∀ br, inUnitRange br = true → ∃ negative m e, unpack br = .finite negative m e) ∧
  ∀ cfg : Config, cfg.SourceLiterals →
    (∀ (br : BVal) (negative : Bool) (m : Nat) (e : Int), inUnitRange br = true → unpack br = .finite negative m e →
      (quantise cfg br).toNat = scaledLevel 31 br.fmt m e ∧ scaledLevel 31 br.fmt m e ≤ 31) ∧
    quantise cfg (.b32 0x00000000#32) = 0#5 ∧ quantise cfg (.b32 0x80000000#32) = 0#5 ∧
    quantise cfg (.b32 0x3F800000#32) = 31#5 ∧ quantise cfg (.b64 0x0000000000000000#64) = 0#5 ∧
    quantise cfg (.b64 0x8000000000000000#64) = 0#5 ∧ quantise cfg (.b64 0x3FF0000000000000#64) = 31#5

/-- 40_pixel_model R103: for a finite positive brightness above the valid range whose truncated scaled value is below 256,
that value is at least 31 and the level is it mod 32: it wraps. -/
def Obligations.LevelWrapsAboveValidRange : Prop :=
  ∀ (cfg : Config) (br : BVal) (m : Nat) (e : Int), cfg.SourceLiterals → unpack br = .finite false m e →
    inUnitRange br = false → scaledLevel 31 br.fmt m e < 256 →
    31 ≤ scaledLevel 31 br.fmt m e ∧ (quantise cfg br).toNat = scaledLevel 31 br.fmt m e % 32

/-- 40_pixel_model R104: a NaN, an infinity, a negative brightness other than -0.0, and a finite one whose scaled value is
256 or more get the OPEN level qOOR. -/
def Obligations.UnsettledBrightnessGetsOpenLevel : Prop :=
  ∀ (cfg : Config) (br : BVal), cfg.SourceLiterals →
    (unpack br = .nan ∨ (∃ negative, unpack br = .infinite negative) ∨
      (∃ m e, m ≠ 0 ∧ unpack br = .finite true m e) ∨
      (∃ m e, unpack br = .finite false m e ∧ 256 ≤ scaledLevel 31 br.fmt m e)) →
    quantise cfg br = Config.qOOR br

/-- 40_pixel_model R105, 30_encoding R71, R72, R76: the encoder's word of every pixel is 111, the level, blue, green, red
from bit 31 down, which is an LED frame of those fields; the brightness byte is at least 224. -/
def Obligations.EncoderBuildsLedFrameWord : Prop :=
  ∀ (cfg : Config) (p : Pixel), cfg.SourceLiterals →
    (encodePixel cfg p).toWord = (0b111#3 ++ quantise cfg p.brightness ++ p.blue ++ p.green ++ p.red : Word) ∧
    decode cfg (.wire32 (encodePixel cfg p).toWord) = .ok (.ledFrame (quantise cfg p.brightness) p.blue p.green p.red) ∧
    224 ≤ (encodePixel cfg p).brightness.toNat

/-! ### The display sequence -/

/-- 42_transmitter R175: the position of every operation of a display of eight words. -/
def Obligations.SequencePositions : Prop :=
  ∀ (cfg : Config) (ws : List WireWord) (q : Nat), cfg.SourceLiterals → ws.length = 8 →
    (displayOps cfg ws)[q]? = positionMap cfg.delay ws q

/-- 42_transmitter R174: 324 pulses, 906 LineWrites, 648 of the clock, half of each level, 258 of DATA, 648 Waits, 1554
operations. -/
def Obligations.SequenceCounts : Prop :=
  ∀ (cfg : Config) (ws : List WireWord), cfg.SourceLiterals → ws.length = 8 →
    (displayOps cfg ws).length = 1554 ∧ pulses (displayOps cfg ws) = 324 ∧
    (displayOps cfg ws).countP isWrite = 906 ∧
    (displayOps cfg ws).countP (isWriteOf .clock true) = 324 ∧
    (displayOps cfg ws).countP (isWriteOf .clock false) = 324 ∧
    (displayOps cfg ws).countP (isWriteOf .data true) + (displayOps cfg ws).countP (isWriteOf .data false) = 258 ∧
    (displayOps cfg ws).countP (fun op => decide (op = .wait cfg.delay)) = 648

/-- 30_encoding R75: DATA at the 324 pulses of a display of eight words is that of the bit-cell map. -/
def Obligations.DataAtPulsesFollowsCellMap : Prop :=
  ∀ (dat : Bool) (cfg : Config) (ws : List WireWord), cfg.SourceLiterals → ws.length = 8 →
    dataAtPulses dat (displayOps cfg ws) = (List.range 324).map (cellMap ws)

/-- 42_transmitter R178: every DATA write but the one at index 0 is made with the clock last driven low, and at every clock
write a DATA write of the display has been made before. -/
def Obligations.DataChangesOnlyWithClockLow : Prop :=
  ∀ (cfg : Config) (ws : List WireWord) (q : Nat), cfg.SourceLiterals → ws.length = 8 →
    (∀ v, 0 < q → (displayOps cfg ws)[q]? = some (.write .data v) →
      lastWrite .clock ((displayOps cfg ws).take q) = some false) ∧
    (∀ v, (displayOps cfg ws)[q]? = some (.write .clock v) → lastWrite .data ((displayOps cfg ws).take q) ≠ none)

/-- 42_transmitter R180: the counter and shift-register form attempts exactly the operations of SEQ in the same order, and
stands at DONE after its 1554 operations and 32 LOADs. And whatever the environment answers, a display run by the form ends
in the same block as one run by the machine: by DONE with Ok, or by the abort of R171 at the operation's index of R175. -/
def Obligations.CounterFormAttemptsSequence : Prop :=
  (∀ (cfg : Config) (ws : List WireWord), cfg.SourceLiterals → ws.length = 8 →
    Counter.ops cfg ws 1586 Counter.start = displayOps cfg ws ∧
      (Counter.run cfg ws 1586 Counter.start).phase = .done) ∧
  (∀ (s : State) (ws : List WireWord) (origin : Origin), s.cfg.SourceLiterals → ws.length = 8 → s.life = .live →
    s.grain = .op → s.tx = .busy (displayOps s.cfg ws) 0 origin →
    ∃ n t, n ≤ 1555 ∧ runFor n s = .next t ∧ t.tx = .idle ∧ Counter.runBlock ws 1587 s Counter.start = t)

/-- 70_reset_and_hazards R234: with every write ok the start frame shows 32 rising edges when the clock line stands low
before it and 31 when it stands high; the whole display then shows 324 or 323. -/
def Obligations.RisingEdgesOfADisplay : Prop :=
  ∀ (clk : Bool) (cfg : Config) (ws : List WireWord), cfg.SourceLiterals → ws.length = 8 →
    risingEdges clk (startOps cfg) = (if clk then 31 else 32) ∧
    risingEdges clk (displayOps cfg ws) = (if clk then 323 else 324)
end

