-- ==== Sys2Proof/Laws/Decode.lean ====
section
/-! SUPPORT. Bytes and words, and what the parts of the decoder and the encoder say of each other. -/

namespace Sys2Proof

/-- Which byte a bit of a word of bytes comes from. -/
theorem wordOfBytes_getLsbD (b3 b2 b1 b0 : Byte) (i : Nat) :
    (wordOfBytes b3 b2 b1 b0).getLsbD i =
      if i < 8 then b0.getLsbD i
      else if i < 16 then b1.getLsbD (i - 8)
      else if i < 24 then b2.getLsbD (i - 16)
      else b3.getLsbD (i - 24) := by
  have h : (wordOfBytes b3 b2 b1 b0).getLsbD i = (b3 ++ b2 ++ b1 ++ b0).getLsbD i := rfl
  rw [h]
  simp only [BitVec.getLsbD_append]
  grind

theorem dwordOfWords_getLsbD (hi lo : Word) (i : Nat) :
    (dwordOfWords hi lo).getLsbD i = if i < 32 then lo.getLsbD i else hi.getLsbD (i - 32) := by
  have h : (dwordOfWords hi lo).getLsbD i = (hi ++ lo).getLsbD i := rfl
  rw [h, BitVec.getLsbD_append]

theorem wordOfBytes_bytesOfWord (w : Word) :
    wordOfBytes (w.extractLsb' 24 8) (w.extractLsb' 16 8) (w.extractLsb' 8 8) (w.extractLsb' 0 8) = w := by
  apply BitVec.eq_of_getLsbD_eq
  intro i hi
  simp only [wordOfBytes_getLsbD, BitVec.getLsbD_extractLsb']
  grind

theorem bytesOfWord_wordOfBytes (b3 b2 b1 b0 : Byte) : bytesOfWord (wordOfBytes b3 b2 b1 b0) = [b3, b2, b1, b0] := by
  simp only [bytesOfWord, List.cons.injEq, and_true]
  refine ⟨?_, ?_, ?_, ?_⟩ <;> apply BitVec.eq_of_getLsbD_eq <;> intro i hi <;>
    simp only [wordOfBytes_getLsbD, BitVec.getLsbD_extractLsb'] <;> grind

theorem dwordOfWords_extract (w : BitVec 64) : dwordOfWords (w.extractLsb' 32 32) (w.extractLsb' 0 32) = w := by
  apply BitVec.eq_of_getLsbD_eq
  intro i hi
  simp only [dwordOfWords_getLsbD, BitVec.getLsbD_extractLsb']
  grind

theorem decodeBVal_encodeBVal (br : BVal) : decodeBVal br.fmt (encodeBVal br) = some br := by
  cases br with
  | b32 bits => simp [BVal.fmt, encodeBVal, bytesOfWord, decodeBVal, wordOfBytes_bytesOfWord]
  | b64 bits =>
    simp only [BVal.fmt, encodeBVal, bytesOfDword, bytesOfWord, decodeBVal, List.cons_append, List.nil_append,
      wordOfBytes_bytesOfWord, dwordOfWords_extract]

theorem decodePixel_encodePixelOperands (p : Pixel) :
    decodePixel p.brightness.fmt (encodePixelOperands p) = some p := by
  simp [decodePixel, encodePixelOperands, decodeBVal_encodeBVal]

@[simp] theorem WireWord.ofWord_toWord (w : WireWord) : WireWord.ofWord w.toWord = w := by
  have h := bytesOfWord_wordOfBytes w.brightness w.blue w.green w.red
  simp only [bytesOfWord, List.cons.injEq, and_true] at h
  simp [WireWord.ofWord, WireWord.toWord, h]

@[simp] theorem WireWord.toWord_ofWord (w : Word) : (WireWord.ofWord w).toWord = w :=
  wordOfBytes_bytesOfWord w

/-! ### What the encoder answers -/

/-- The encoder gives a code to just the well-formed instructions, and it is that of the tables. -/
theorem encode_eq_some {cfg : Config} {i : Instr} {code : Code} :
    encode cfg i = some code ↔ i.wf cfg = true ∧ codeOf cfg i = code := by
  simp [encode]

/-- With the source's literals the brightness byte is 111 and the level (30_encoding R72). -/
theorem brightnessByte_eq {cfg : Config} (h : cfg.SourceLiterals) (level : BrightLevel) :
    brightnessByte cfg level = 0b111#3 ++ level := by
  unfold brightnessByte
  rw [h.brightnessMarker, h.levelMask]
  revert level
  decide

/-- With the source's literals the byte's level is its low five bits (30_encoding R71). -/
theorem wireLevel_eq {cfg : Config} (h : cfg.SourceLiterals) (b : Byte) : wireLevel cfg b = b.extractLsb' 0 5 := by
  unfold wireLevel
  rw [h.levelMask]
  revert b
  decide +kernel

/-- With the source's literals every level can be read back from its byte (30_encoding R71). -/
theorem wireLevel_brightnessByte {cfg : Config} (h : cfg.SourceLiterals) (level : BrightLevel) :
    wireLevel cfg (brightnessByte cfg level) = level := by
  rw [wireLevel_eq h, brightnessByte_eq h]
  revert level
  decide

end Sys2Proof
end

