-- ==== Sys2Proof/Laws/Sequence.lean ====
section
/-! SUPPORT. Lengths and shapes of the parts of a display sequence (42_transmitter R162 to R167). -/

namespace Sys2Proof.Machine

@[simp] theorem pulseOps_length (d : Nat) : (pulseOps d).length = 4 := rfl

@[simp] theorem pulsesOps_length (d n : Nat) : (pulsesOps d n).length = 4 * n := by
  induction n with
  | zero => rfl
  | succ n ih => simp [pulsesOps, ih]; omega

@[simp] theorem startOps_length (cfg : Config) : (startOps cfg).length = 1 + 4 * cfg.startPulses := by
  simp [startOps]; omega

@[simp] theorem bitOps_length (d : Nat) (v : Bool) : (bitOps d v).length = 5 := rfl

@[simp] theorem bitsOfByte_length (b : Byte) : (bitsOfByte b).length = 8 := rfl

@[simp] theorem byteOps_length (d : Nat) (b : Byte) : (byteOps d b).length = 40 := rfl

@[simp] theorem wordOps_length (d : Nat) (w : WireWord) : (wordOps d w).length = 160 := by
  simp [wordOps]

@[simp] theorem endOps_length (cfg : Config) : (endOps cfg).length = 1 + 4 * cfg.endPulses := by
  simp [endOps]; omega

/-- The words of a display, one after the other. -/
theorem words_length (d : Nat) (ws : List WireWord) : (ws.flatMap (wordOps d)).length = 160 * ws.length := by
  induction ws with
  | nil => rfl
  | cons w ws ih => simp [ih]; omega

theorem displayOps_length (cfg : Config) (ws : List WireWord) :
    (displayOps cfg ws).length = 2 + 4 * cfg.startPulses + 160 * ws.length + 4 * cfg.endPulses := by
  simp only [displayOps, List.length_append, startOps_length, words_length, endOps_length]; omega

@[simp] theorem lastWrite_nil (line : Line) : lastWrite line [] = none := rfl

/-- The last write is that of the rest, or else that of the head. -/
theorem lastWrite_cons (line : Line) (op : LineOp) (rest : List LineOp) :
    lastWrite line (op :: rest) = (lastWrite line rest).or (match op with
      | .write l v => if l = line then some v else none
      | .wait _ => none) := by
  cases op <;> cases h : lastWrite line rest <;> simp [lastWrite, h]

theorem lastWrite_append (line : Line) (a b : List LineOp) :
    lastWrite line (a ++ b) = (lastWrite line b).or (lastWrite line a) := by
  induction a with
  | nil => simp
  | cons op rest ih => simp [lastWrite_cons, ih, Option.or_assoc]

/-! ### LineWrites, and the values the lines are left at -/

theorem pulsesOps_writes (d n : Nat) : (pulsesOps d n).countP isWrite = 2 * n := by
  induction n with
  | zero => rfl
  | succ n ih => simp [pulsesOps, ih, pulseOps, isWrite, List.countP_cons]; omega

theorem startOps_writes (cfg : Config) : (startOps cfg).countP isWrite = 2 * cfg.startPulses + 1 := by
  simp [startOps, isWrite, List.countP_cons, pulsesOps_writes]

theorem endOps_writes (cfg : Config) : (endOps cfg).countP isWrite = 2 * cfg.endPulses + 1 := by
  simp [endOps, isWrite, List.countP_cons, pulsesOps_writes]

theorem byteOps_writes (d : Nat) (b : Byte) : (byteOps d b).countP isWrite = 24 := by
  simp [byteOps, bitsOfByte, bitOps, pulseOps, isWrite, List.countP_cons]

theorem wordOps_writes (d : Nat) (w : WireWord) : (wordOps d w).countP isWrite = 96 := by
  simp [wordOps, byteOps_writes]

theorem pulsesOps_last (d n : Nat) :
    lastWrite .clock (pulsesOps d (n + 1)) = some false ∧ lastWrite .data (pulsesOps d (n + 1)) = none := by
  induction n with
  | zero => simp [pulsesOps, pulseOps, lastWrite]
  | succ n ih => rw [pulsesOps]; simp only [lastWrite_append, ih]; simp [pulseOps, lastWrite]

theorem byteOps_last (d : Nat) (b : Byte) :
    lastWrite .clock (byteOps d b) = some false ∧ lastWrite .data (byteOps d b) = some (b.getLsbD 0) := by
  simp [byteOps, bitsOfByte, bitOps, pulseOps, lastWrite]

theorem wordOps_last (d : Nat) (w : WireWord) :
    lastWrite .clock (wordOps d w) = some false ∧ lastWrite .data (wordOps d w) = some (w.red.getLsbD 0) := by
  simp [wordOps, byteOps_last, lastWrite_append]

end Sys2Proof.Machine
end

