-- ==== Sys2Proof/Laws/State.lean ====
section
/-! SUPPORT. For each update of the state, what each field reads afterwards. -/

namespace Sys2Proof.Machine

variable (s : State)

/-! ### setLife -/

@[simp] theorem State.setLife_life (life : Life) : (s.setLife life).life = life := rfl
@[simp] theorem State.setLife_buf (life : Life) : (s.setLife life).buf = s.buf := rfl
@[simp] theorem State.setLife_clk (life : Life) : (s.setLife life).clk = s.clk := rfl
@[simp] theorem State.setLife_dat (life : Life) : (s.setLife life).dat = s.dat := rfl
@[simp] theorem State.setLife_tx (life : Life) : (s.setLife life).tx = s.tx := rfl
@[simp] theorem State.setLife_resp (life : Life) : (s.setLife life).resp = s.resp := rfl
@[simp] theorem State.setLife_cfg (life : Life) : (s.setLife life).cfg = s.cfg := rfl
@[simp] theorem State.setLife_inbox (life : Life) : (s.setLife life).inbox = s.inbox := rfl
@[simp] theorem State.setLife_answers (life : Life) : (s.setLife life).answers = s.answers := rfl
@[simp] theorem State.setLife_attempts (life : Life) : (s.setLife life).attempts = s.attempts := rfl
@[simp] theorem State.setLife_log (life : Life) : (s.setLife life).log = s.log := rfl
@[simp] theorem State.setLife_delivered (life : Life) : (s.setLife life).delivered = s.delivered := rfl
@[simp] theorem State.setLife_grain (life : Life) : (s.setLife life).grain = s.grain := rfl

/-! ### setBuf -/

@[simp] theorem State.setBuf_life (buf : List Pixel) : (s.setBuf buf).life = s.life := rfl
@[simp] theorem State.setBuf_buf (buf : List Pixel) : (s.setBuf buf).buf = buf := rfl
@[simp] theorem State.setBuf_clk (buf : List Pixel) : (s.setBuf buf).clk = s.clk := rfl
@[simp] theorem State.setBuf_dat (buf : List Pixel) : (s.setBuf buf).dat = s.dat := rfl
@[simp] theorem State.setBuf_tx (buf : List Pixel) : (s.setBuf buf).tx = s.tx := rfl
@[simp] theorem State.setBuf_resp (buf : List Pixel) : (s.setBuf buf).resp = s.resp := rfl
@[simp] theorem State.setBuf_cfg (buf : List Pixel) : (s.setBuf buf).cfg = s.cfg := rfl
@[simp] theorem State.setBuf_inbox (buf : List Pixel) : (s.setBuf buf).inbox = s.inbox := rfl
@[simp] theorem State.setBuf_answers (buf : List Pixel) : (s.setBuf buf).answers = s.answers := rfl
@[simp] theorem State.setBuf_attempts (buf : List Pixel) : (s.setBuf buf).attempts = s.attempts := rfl
@[simp] theorem State.setBuf_log (buf : List Pixel) : (s.setBuf buf).log = s.log := rfl
@[simp] theorem State.setBuf_delivered (buf : List Pixel) : (s.setBuf buf).delivered = s.delivered := rfl
@[simp] theorem State.setBuf_grain (buf : List Pixel) : (s.setBuf buf).grain = s.grain := rfl

/-! ### setTx -/

@[simp] theorem State.setTx_life (tx : Tx) : (s.setTx tx).life = s.life := rfl
@[simp] theorem State.setTx_buf (tx : Tx) : (s.setTx tx).buf = s.buf := rfl
@[simp] theorem State.setTx_clk (tx : Tx) : (s.setTx tx).clk = s.clk := rfl
@[simp] theorem State.setTx_dat (tx : Tx) : (s.setTx tx).dat = s.dat := rfl
@[simp] theorem State.setTx_tx (tx : Tx) : (s.setTx tx).tx = tx := rfl
@[simp] theorem State.setTx_resp (tx : Tx) : (s.setTx tx).resp = s.resp := rfl
@[simp] theorem State.setTx_cfg (tx : Tx) : (s.setTx tx).cfg = s.cfg := rfl
@[simp] theorem State.setTx_inbox (tx : Tx) : (s.setTx tx).inbox = s.inbox := rfl
@[simp] theorem State.setTx_answers (tx : Tx) : (s.setTx tx).answers = s.answers := rfl
@[simp] theorem State.setTx_attempts (tx : Tx) : (s.setTx tx).attempts = s.attempts := rfl
@[simp] theorem State.setTx_log (tx : Tx) : (s.setTx tx).log = s.log := rfl
@[simp] theorem State.setTx_delivered (tx : Tx) : (s.setTx tx).delivered = s.delivered := rfl
@[simp] theorem State.setTx_grain (tx : Tx) : (s.setTx tx).grain = s.grain := rfl

/-! ### setInbox -/

@[simp] theorem State.setInbox_life (inbox : List HostItem) : (s.setInbox inbox).life = s.life := rfl
@[simp] theorem State.setInbox_buf (inbox : List HostItem) : (s.setInbox inbox).buf = s.buf := rfl
@[simp] theorem State.setInbox_clk (inbox : List HostItem) : (s.setInbox inbox).clk = s.clk := rfl
@[simp] theorem State.setInbox_dat (inbox : List HostItem) : (s.setInbox inbox).dat = s.dat := rfl
@[simp] theorem State.setInbox_tx (inbox : List HostItem) : (s.setInbox inbox).tx = s.tx := rfl
@[simp] theorem State.setInbox_resp (inbox : List HostItem) : (s.setInbox inbox).resp = s.resp := rfl
@[simp] theorem State.setInbox_cfg (inbox : List HostItem) : (s.setInbox inbox).cfg = s.cfg := rfl
@[simp] theorem State.setInbox_inbox (inbox : List HostItem) : (s.setInbox inbox).inbox = inbox := rfl
@[simp] theorem State.setInbox_answers (inbox : List HostItem) : (s.setInbox inbox).answers = s.answers := rfl
@[simp] theorem State.setInbox_attempts (inbox : List HostItem) : (s.setInbox inbox).attempts = s.attempts := rfl
@[simp] theorem State.setInbox_log (inbox : List HostItem) : (s.setInbox inbox).log = s.log := rfl
@[simp] theorem State.setInbox_delivered (inbox : List HostItem) : (s.setInbox inbox).delivered = s.delivered := rfl
@[simp] theorem State.setInbox_grain (inbox : List HostItem) : (s.setInbox inbox).grain = s.grain := rfl

/-! ### setGrain -/

@[simp] theorem State.setGrain_life (grain : Grain) : (s.setGrain grain).life = s.life := rfl
@[simp] theorem State.setGrain_buf (grain : Grain) : (s.setGrain grain).buf = s.buf := rfl
@[simp] theorem State.setGrain_clk (grain : Grain) : (s.setGrain grain).clk = s.clk := rfl
@[simp] theorem State.setGrain_dat (grain : Grain) : (s.setGrain grain).dat = s.dat := rfl
@[simp] theorem State.setGrain_tx (grain : Grain) : (s.setGrain grain).tx = s.tx := rfl
@[simp] theorem State.setGrain_resp (grain : Grain) : (s.setGrain grain).resp = s.resp := rfl
@[simp] theorem State.setGrain_cfg (grain : Grain) : (s.setGrain grain).cfg = s.cfg := rfl
@[simp] theorem State.setGrain_inbox (grain : Grain) : (s.setGrain grain).inbox = s.inbox := rfl
@[simp] theorem State.setGrain_answers (grain : Grain) : (s.setGrain grain).answers = s.answers := rfl
@[simp] theorem State.setGrain_attempts (grain : Grain) : (s.setGrain grain).attempts = s.attempts := rfl
@[simp] theorem State.setGrain_log (grain : Grain) : (s.setGrain grain).log = s.log := rfl
@[simp] theorem State.setGrain_delivered (grain : Grain) : (s.setGrain grain).delivered = s.delivered := rfl
@[simp] theorem State.setGrain_grain (grain : Grain) : (s.setGrain grain).grain = grain := rfl

/-! ### record -/

@[simp] theorem State.record_life (t : Token) : (s.record t).life = s.life := rfl
@[simp] theorem State.record_buf (t : Token) : (s.record t).buf = s.buf := rfl
@[simp] theorem State.record_clk (t : Token) : (s.record t).clk = s.clk := rfl
@[simp] theorem State.record_dat (t : Token) : (s.record t).dat = s.dat := rfl
@[simp] theorem State.record_tx (t : Token) : (s.record t).tx = s.tx := rfl
@[simp] theorem State.record_resp (t : Token) : (s.record t).resp = s.resp := rfl
@[simp] theorem State.record_cfg (t : Token) : (s.record t).cfg = s.cfg := rfl
@[simp] theorem State.record_inbox (t : Token) : (s.record t).inbox = s.inbox := rfl
@[simp] theorem State.record_answers (t : Token) : (s.record t).answers = s.answers := rfl
@[simp] theorem State.record_attempts (t : Token) : (s.record t).attempts = s.attempts := rfl
@[simp] theorem State.record_log (t : Token) : (s.record t).log = s.log ++ [t] := rfl
@[simp] theorem State.record_delivered (t : Token) : (s.record t).delivered = s.delivered := rfl
@[simp] theorem State.record_grain (t : Token) : (s.record t).grain = s.grain := rfl

/-! ### deliver -/

@[simp] theorem State.deliver_life (r : Response) : (s.deliver r).life = s.life := rfl
@[simp] theorem State.deliver_buf (r : Response) : (s.deliver r).buf = s.buf := rfl
@[simp] theorem State.deliver_clk (r : Response) : (s.deliver r).clk = s.clk := rfl
@[simp] theorem State.deliver_dat (r : Response) : (s.deliver r).dat = s.dat := rfl
@[simp] theorem State.deliver_tx (r : Response) : (s.deliver r).tx = s.tx := rfl
@[simp] theorem State.deliver_resp (r : Response) : (s.deliver r).resp = s.resp := rfl
@[simp] theorem State.deliver_cfg (r : Response) : (s.deliver r).cfg = s.cfg := rfl
@[simp] theorem State.deliver_inbox (r : Response) : (s.deliver r).inbox = s.inbox := rfl
@[simp] theorem State.deliver_answers (r : Response) : (s.deliver r).answers = s.answers := rfl
@[simp] theorem State.deliver_attempts (r : Response) : (s.deliver r).attempts = s.attempts := rfl
@[simp] theorem State.deliver_log (r : Response) : (s.deliver r).log = s.log := rfl
@[simp] theorem State.deliver_delivered (r : Response) : (s.deliver r).delivered = s.delivered ++ [r] := rfl
@[simp] theorem State.deliver_grain (r : Response) : (s.deliver r).grain = s.grain := rfl

/-! ### respond -/

@[simp] theorem State.respond_life (r : Response) : (s.respond r).life = s.life := rfl
@[simp] theorem State.respond_buf (r : Response) : (s.respond r).buf = s.buf := rfl
@[simp] theorem State.respond_clk (r : Response) : (s.respond r).clk = s.clk := rfl
@[simp] theorem State.respond_dat (r : Response) : (s.respond r).dat = s.dat := rfl
@[simp] theorem State.respond_tx (r : Response) : (s.respond r).tx = s.tx := rfl
@[simp] theorem State.respond_resp (r : Response) : (s.respond r).resp = some r := rfl
@[simp] theorem State.respond_cfg (r : Response) : (s.respond r).cfg = s.cfg := rfl
@[simp] theorem State.respond_inbox (r : Response) : (s.respond r).inbox = s.inbox := rfl
@[simp] theorem State.respond_answers (r : Response) : (s.respond r).answers = s.answers := rfl
@[simp] theorem State.respond_attempts (r : Response) : (s.respond r).attempts = s.attempts := rfl
@[simp] theorem State.respond_log (r : Response) : (s.respond r).log = s.log := rfl
@[simp] theorem State.respond_delivered (r : Response) : (s.respond r).delivered = s.delivered ++ [r] := rfl
@[simp] theorem State.respond_grain (r : Response) : (s.respond r).grain = s.grain := rfl

/-! ### useAnswer -/

@[simp] theorem State.useAnswer_life : (s.useAnswer).life = s.life := rfl
@[simp] theorem State.useAnswer_buf : (s.useAnswer).buf = s.buf := rfl
@[simp] theorem State.useAnswer_clk : (s.useAnswer).clk = s.clk := rfl
@[simp] theorem State.useAnswer_dat : (s.useAnswer).dat = s.dat := rfl
@[simp] theorem State.useAnswer_tx : (s.useAnswer).tx = s.tx := rfl
@[simp] theorem State.useAnswer_resp : (s.useAnswer).resp = s.resp := rfl
@[simp] theorem State.useAnswer_cfg : (s.useAnswer).cfg = s.cfg := rfl
@[simp] theorem State.useAnswer_inbox : (s.useAnswer).inbox = s.inbox := rfl
@[simp] theorem State.useAnswer_answers : (s.useAnswer).answers = s.answers.tail := rfl
@[simp] theorem State.useAnswer_attempts : (s.useAnswer).attempts = s.attempts + 1 := rfl
@[simp] theorem State.useAnswer_log : (s.useAnswer).log = s.log := rfl
@[simp] theorem State.useAnswer_delivered : (s.useAnswer).delivered = s.delivered := rfl
@[simp] theorem State.useAnswer_grain : (s.useAnswer).grain = s.grain := rfl

/-! ### build -/

@[simp] theorem State.build_life (cfg : Config) (initBuf : List Pixel) : (s.build cfg initBuf).life = .live := rfl
@[simp] theorem State.build_buf (cfg : Config) (initBuf : List Pixel) : (s.build cfg initBuf).buf = initBuf := rfl
@[simp] theorem State.build_clk (cfg : Config) (initBuf : List Pixel) : (s.build cfg initBuf).clk = .unknown := rfl
@[simp] theorem State.build_dat (cfg : Config) (initBuf : List Pixel) : (s.build cfg initBuf).dat = .unknown := rfl
@[simp] theorem State.build_tx (cfg : Config) (initBuf : List Pixel) : (s.build cfg initBuf).tx = .idle := rfl
@[simp] theorem State.build_resp (cfg : Config) (initBuf : List Pixel) : (s.build cfg initBuf).resp = none := rfl
@[simp] theorem State.build_cfg (cfg : Config) (initBuf : List Pixel) : (s.build cfg initBuf).cfg = cfg := rfl
@[simp] theorem State.build_inbox (cfg : Config) (initBuf : List Pixel) : (s.build cfg initBuf).inbox = s.inbox := rfl
@[simp] theorem State.build_answers (cfg : Config) (initBuf : List Pixel) : (s.build cfg initBuf).answers = s.answers := rfl
@[simp] theorem State.build_attempts (cfg : Config) (initBuf : List Pixel) : (s.build cfg initBuf).attempts = s.attempts := rfl
@[simp] theorem State.build_log (cfg : Config) (initBuf : List Pixel) : (s.build cfg initBuf).log = s.log := rfl
@[simp] theorem State.build_delivered (cfg : Config) (initBuf : List Pixel) : (s.build cfg initBuf).delivered = s.delivered := rfl
@[simp] theorem State.build_grain (cfg : Config) (initBuf : List Pixel) : (s.build cfg initBuf).grain = s.grain := rfl

/-! ### startDisplay -/

@[simp] theorem State.startDisplay_life (origin : Origin) : (s.startDisplay origin).life = s.life := rfl
@[simp] theorem State.startDisplay_buf (origin : Origin) : (s.startDisplay origin).buf = s.buf := rfl
@[simp] theorem State.startDisplay_clk (origin : Origin) : (s.startDisplay origin).clk = s.clk := rfl
@[simp] theorem State.startDisplay_dat (origin : Origin) : (s.startDisplay origin).dat = s.dat := rfl
@[simp] theorem State.startDisplay_tx (origin : Origin) : (s.startDisplay origin).tx = 
    .busy (displayOps s.cfg (encodeBuffer s.cfg s.buf)) 0 origin := rfl
@[simp] theorem State.startDisplay_resp (origin : Origin) : (s.startDisplay origin).resp = s.resp := rfl
@[simp] theorem State.startDisplay_cfg (origin : Origin) : (s.startDisplay origin).cfg = s.cfg := rfl
@[simp] theorem State.startDisplay_inbox (origin : Origin) : (s.startDisplay origin).inbox = s.inbox := rfl
@[simp] theorem State.startDisplay_answers (origin : Origin) : (s.startDisplay origin).answers = s.answers := rfl
@[simp] theorem State.startDisplay_attempts (origin : Origin) : (s.startDisplay origin).attempts = s.attempts := rfl
@[simp] theorem State.startDisplay_log (origin : Origin) : (s.startDisplay origin).log = s.log := rfl
@[simp] theorem State.startDisplay_delivered (origin : Origin) : (s.startDisplay origin).delivered = s.delivered := rfl
@[simp] theorem State.startDisplay_grain (origin : Origin) : (s.startDisplay origin).grain = s.grain := rfl

/-! ### completeDisplay -/

@[simp] theorem State.completeDisplay_life : (s.completeDisplay).life = s.life := rfl
@[simp] theorem State.completeDisplay_buf : (s.completeDisplay).buf = s.buf := rfl
@[simp] theorem State.completeDisplay_clk : (s.completeDisplay).clk = s.clk := rfl
@[simp] theorem State.completeDisplay_dat : (s.completeDisplay).dat = s.dat := rfl
@[simp] theorem State.completeDisplay_tx : (s.completeDisplay).tx = .idle := rfl
@[simp] theorem State.completeDisplay_resp : (s.completeDisplay).resp = some .done := rfl
@[simp] theorem State.completeDisplay_cfg : (s.completeDisplay).cfg = s.cfg := rfl
@[simp] theorem State.completeDisplay_inbox : (s.completeDisplay).inbox = s.inbox := rfl
@[simp] theorem State.completeDisplay_answers : (s.completeDisplay).answers = s.answers := rfl
@[simp] theorem State.completeDisplay_attempts : (s.completeDisplay).attempts = s.attempts := rfl
@[simp] theorem State.completeDisplay_log : (s.completeDisplay).log = s.log := rfl
@[simp] theorem State.completeDisplay_delivered : (s.completeDisplay).delivered = s.delivered ++ [.done] := rfl
@[simp] theorem State.completeDisplay_grain : (s.completeDisplay).grain = s.grain := rfl

/-! ### setLatch -/

@[simp] theorem State.setLatch_life (line : Line) (level : Level) : (s.setLatch line level).life = s.life := by
  cases line <;> rfl
@[simp] theorem State.setLatch_buf (line : Line) (level : Level) : (s.setLatch line level).buf = s.buf := by
  cases line <;> rfl
@[simp] theorem State.setLatch_clk (line : Line) (level : Level) : (s.setLatch line level).clk = if line = .clock then level else s.clk := by
  cases line <;> rfl
@[simp] theorem State.setLatch_dat (line : Line) (level : Level) : (s.setLatch line level).dat = if line = .data then level else s.dat := by
  cases line <;> rfl
@[simp] theorem State.setLatch_tx (line : Line) (level : Level) : (s.setLatch line level).tx = s.tx := by
  cases line <;> rfl
@[simp] theorem State.setLatch_resp (line : Line) (level : Level) : (s.setLatch line level).resp = s.resp := by
  cases line <;> rfl
@[simp] theorem State.setLatch_cfg (line : Line) (level : Level) : (s.setLatch line level).cfg = s.cfg := by
  cases line <;> rfl
@[simp] theorem State.setLatch_inbox (line : Line) (level : Level) : (s.setLatch line level).inbox = s.inbox := by
  cases line <;> rfl
@[simp] theorem State.setLatch_answers (line : Line) (level : Level) : (s.setLatch line level).answers = s.answers := by
  cases line <;> rfl
@[simp] theorem State.setLatch_attempts (line : Line) (level : Level) : (s.setLatch line level).attempts = s.attempts := by
  cases line <;> rfl
@[simp] theorem State.setLatch_log (line : Line) (level : Level) : (s.setLatch line level).log = s.log := by
  cases line <;> rfl
@[simp] theorem State.setLatch_delivered (line : Line) (level : Level) : (s.setLatch line level).delivered = s.delivered := by
  cases line <;> rfl
@[simp] theorem State.setLatch_grain (line : Line) (level : Level) : (s.setLatch line level).grain = s.grain := by
  cases line <;> rfl

/-! ### lineWrite -/

@[simp] theorem State.lineWrite_life (line : Line) (v : Bool) :
    (s.lineWrite line v).life = s.life := by
  simp [State.lineWrite]
@[simp] theorem State.lineWrite_buf (line : Line) (v : Bool) :
    (s.lineWrite line v).buf = s.buf := by
  simp [State.lineWrite]
@[simp] theorem State.lineWrite_clk (line : Line) (v : Bool) :
    (s.lineWrite line v).clk = if line = .clock then (if s.nextAnswer then levelOf v else .unknown) else s.clk := by
  simp [State.lineWrite]
@[simp] theorem State.lineWrite_dat (line : Line) (v : Bool) :
    (s.lineWrite line v).dat = if line = .data then (if s.nextAnswer then levelOf v else .unknown) else s.dat := by
  simp [State.lineWrite]
@[simp] theorem State.lineWrite_tx (line : Line) (v : Bool) :
    (s.lineWrite line v).tx = s.tx := by
  simp [State.lineWrite]
@[simp] theorem State.lineWrite_resp (line : Line) (v : Bool) :
    (s.lineWrite line v).resp = s.resp := by
  simp [State.lineWrite]
@[simp] theorem State.lineWrite_cfg (line : Line) (v : Bool) :
    (s.lineWrite line v).cfg = s.cfg := by
  simp [State.lineWrite]
@[simp] theorem State.lineWrite_inbox (line : Line) (v : Bool) :
    (s.lineWrite line v).inbox = s.inbox := by
  simp [State.lineWrite]
@[simp] theorem State.lineWrite_answers (line : Line) (v : Bool) :
    (s.lineWrite line v).answers = s.answers.tail := by
  simp [State.lineWrite]
@[simp] theorem State.lineWrite_attempts (line : Line) (v : Bool) :
    (s.lineWrite line v).attempts = s.attempts + 1 := by
  simp [State.lineWrite]
@[simp] theorem State.lineWrite_log (line : Line) (v : Bool) :
    (s.lineWrite line v).log = s.log ++ [.write line v s.nextAnswer] := by
  simp [State.lineWrite]
@[simp] theorem State.lineWrite_delivered (line : Line) (v : Bool) :
    (s.lineWrite line v).delivered = s.delivered := by
  simp [State.lineWrite]
@[simp] theorem State.lineWrite_grain (line : Line) (v : Bool) :
    (s.lineWrite line v).grain = s.grain := by
  simp [State.lineWrite]

/-! ### advance -/

@[simp] theorem State.advance_tx :
    s.advance.tx = match s.tx with
      | .idle => .idle
      | .busy seq pc origin => .busy seq (pc + 1) origin := by
  unfold State.advance
  split <;> simp_all
@[simp] theorem State.advance_life : s.advance.life = s.life := by
  unfold State.advance
  split <;> rfl
@[simp] theorem State.advance_buf : s.advance.buf = s.buf := by
  unfold State.advance
  split <;> rfl
@[simp] theorem State.advance_clk : s.advance.clk = s.clk := by
  unfold State.advance
  split <;> rfl
@[simp] theorem State.advance_dat : s.advance.dat = s.dat := by
  unfold State.advance
  split <;> rfl
@[simp] theorem State.advance_resp : s.advance.resp = s.resp := by
  unfold State.advance
  split <;> rfl
@[simp] theorem State.advance_cfg : s.advance.cfg = s.cfg := by
  unfold State.advance
  split <;> rfl
@[simp] theorem State.advance_inbox : s.advance.inbox = s.inbox := by
  unfold State.advance
  split <;> rfl
@[simp] theorem State.advance_answers : s.advance.answers = s.answers := by
  unfold State.advance
  split <;> rfl
@[simp] theorem State.advance_attempts : s.advance.attempts = s.attempts := by
  unfold State.advance
  split <;> rfl
@[simp] theorem State.advance_log : s.advance.log = s.log := by
  unfold State.advance
  split <;> rfl
@[simp] theorem State.advance_delivered : s.advance.delivered = s.delivered := by
  unfold State.advance
  split <;> rfl
@[simp] theorem State.advance_grain : s.advance.grain = s.grain := by
  unfold State.advance
  split <;> rfl

/-! ### abortAt -/

@[simp] theorem State.abortAt_life (op : Nat) (line : Line) : (s.abortAt op line).life = s.life := rfl
@[simp] theorem State.abortAt_buf (op : Nat) (line : Line) : (s.abortAt op line).buf = s.buf := rfl
@[simp] theorem State.abortAt_clk (op : Nat) (line : Line) : (s.abortAt op line).clk = s.clk := rfl
@[simp] theorem State.abortAt_dat (op : Nat) (line : Line) : (s.abortAt op line).dat = s.dat := rfl
@[simp] theorem State.abortAt_tx (op : Nat) (line : Line) : (s.abortAt op line).tx = .idle := rfl
@[simp] theorem State.abortAt_resp (op : Nat) (line : Line) :
    (s.abortAt op line).resp = some (.lineWriteFailed op line) := rfl
@[simp] theorem State.abortAt_cfg (op : Nat) (line : Line) : (s.abortAt op line).cfg = s.cfg := rfl
@[simp] theorem State.abortAt_inbox (op : Nat) (line : Line) : (s.abortAt op line).inbox = s.inbox := rfl
@[simp] theorem State.abortAt_answers (op : Nat) (line : Line) : (s.abortAt op line).answers = s.answers := rfl
@[simp] theorem State.abortAt_attempts (op : Nat) (line : Line) : (s.abortAt op line).attempts = s.attempts := rfl
@[simp] theorem State.abortAt_log (op : Nat) (line : Line) : (s.abortAt op line).log = s.log := rfl
@[simp] theorem State.abortAt_delivered (op : Nat) (line : Line) :
    (s.abortAt op line).delivered = s.delivered ++ [.lineWriteFailed op line] := rfl
@[simp] theorem State.abortAt_grain (op : Nat) (line : Line) : (s.abortAt op line).grain = s.grain := rfl

/-! ### abortDisplay -/

@[simp] theorem State.abortDisplay_tx (line : Line) : (s.abortDisplay line).tx = .idle := by
  unfold State.abortDisplay
  split <;> simp_all
@[simp] theorem State.abortDisplay_resp (line : Line) :
    (s.abortDisplay line).resp = match s.tx with
      | .idle => s.resp
      | .busy _ pc _ => some (.lineWriteFailed pc line) := by
  unfold State.abortDisplay
  split <;> simp_all
@[simp] theorem State.abortDisplay_delivered (line : Line) :
    (s.abortDisplay line).delivered = match s.tx with
      | .idle => s.delivered
      | .busy _ pc _ => s.delivered ++ [.lineWriteFailed pc line] := by
  unfold State.abortDisplay
  split <;> simp_all
@[simp] theorem State.abortDisplay_life (line : Line) : (s.abortDisplay line).life = s.life := by
  unfold State.abortDisplay
  split <;> rfl
@[simp] theorem State.abortDisplay_buf (line : Line) : (s.abortDisplay line).buf = s.buf := by
  unfold State.abortDisplay
  split <;> rfl
@[simp] theorem State.abortDisplay_clk (line : Line) : (s.abortDisplay line).clk = s.clk := by
  unfold State.abortDisplay
  split <;> rfl
@[simp] theorem State.abortDisplay_dat (line : Line) : (s.abortDisplay line).dat = s.dat := by
  unfold State.abortDisplay
  split <;> rfl
@[simp] theorem State.abortDisplay_cfg (line : Line) : (s.abortDisplay line).cfg = s.cfg := by
  unfold State.abortDisplay
  split <;> rfl
@[simp] theorem State.abortDisplay_inbox (line : Line) : (s.abortDisplay line).inbox = s.inbox := by
  unfold State.abortDisplay
  split <;> rfl
@[simp] theorem State.abortDisplay_answers (line : Line) : (s.abortDisplay line).answers = s.answers := by
  unfold State.abortDisplay
  split <;> rfl
@[simp] theorem State.abortDisplay_attempts (line : Line) : (s.abortDisplay line).attempts = s.attempts := by
  unfold State.abortDisplay
  split <;> rfl
@[simp] theorem State.abortDisplay_log (line : Line) : (s.abortDisplay line).log = s.log := by
  unfold State.abortDisplay
  split <;> rfl
@[simp] theorem State.abortDisplay_grain (line : Line) : (s.abortDisplay line).grain = s.grain := by
  unfold State.abortDisplay
  split <;> rfl

end Sys2Proof.Machine
end

