-- ==== Sys2Proof/Laws/Ops.lean ====
section
/-! SUPPORT. For each shared operation, what it can do, said once. -/

namespace Sys2Proof.Machine

/-! ### When something may happen -/

theorem whenReady_ready {s : State} (next : State) (hl : s.life = .live) (ht : s.tx = .idle) :
    whenReady s next = .next next := by
  simp [whenReady, hl, ht]

theorem whenReady_held {s : State} (next : State) (hl : s.life = .live) (ht : s.tx ≠ .idle) :
    whenReady s next = .next s := by
  cases h : s.tx with
  | idle => exact absurd h ht
  | busy seq pc origin => simp [whenReady, hl, h]

theorem whenReady_refused {s : State} (next : State) (hl : s.life ≠ .live) :
    whenReady s next = .refused .notLive := by
  unfold whenReady
  split <;> simp_all

/-- A command answers a next state in two ways: it was accepted, or it is held and nothing changed. -/
theorem whenReady_next {s next t : State} (h : whenReady s next = .next t) :
    s.life = .live ∧ ((s.tx = .idle ∧ t = next) ∨ (s.tx ≠ .idle ∧ t = s)) := by
  unfold whenReady at h
  split at h <;> simp_all

theorem whenLive_live {s : State} (next : State) (hl : s.life = .live) : whenLive s next = .next next := by
  simp [whenLive, hl]

theorem whenLive_next {s next t : State} (h : whenLive s next = .next t) : s.life = .live ∧ t = next := by
  unfold whenLive at h
  split at h <;> simp_all

/-! ### Line operations -/

theorem State.nextAnswer_cons {s : State} {ok : Bool} {rest : List Bool} (h : s.answers = ok :: rest) :
    s.nextAnswer = ok := by
  simp [State.nextAnswer, h]

theorem State.performOp_write_ok {s : State} (line : Line) (v : Bool) (h : s.nextAnswer = true) :
    s.performOp (.write line v) = (s.lineWrite line v).advance := by
  simp [State.performOp, h]

theorem State.performOp_write_fail {s : State} (line : Line) (v : Bool) (h : s.nextAnswer = false) :
    s.performOp (.write line v) = (s.lineWrite line v).abortDisplay line := by
  simp [State.performOp, h]

theorem State.performOp_wait (s : State) (d : Nat) : s.performOp (.wait d) = (s.record (.wait d)).advance := rfl

theorem SameBlock.refl (s : State) : SameBlock s s := ⟨rfl, rfl, rfl, rfl, rfl⟩

theorem SameBlock.trans {s t u : State} (h : SameBlock s t) (k : SameBlock t u) : SameBlock s u :=
  ⟨k.life.trans h.life, k.buf.trans h.buf, k.cfg.trans h.cfg, k.inbox.trans h.inbox, k.grain.trans h.grain⟩

theorem State.performOp_sameBlock (s : State) (op : LineOp) : SameBlock s (s.performOp op) := by
  cases op with
  | write line v =>
    unfold State.performOp
    dsimp only
    split <;> constructor <;> simp
  | wait d => constructor <;> simp [State.performOp]

theorem State.performOps_sameBlock (ops : List LineOp) (s : State) : SameBlock s (s.performOps ops) := by
  induction ops generalizing s with
  | nil => exact .refl s
  | cons op rest ih =>
    unfold State.performOps
    split
    · exact (s.performOp_sameBlock op).trans (ih _)
    · exact s.performOp_sameBlock op

theorem State.performOps_cons_ok {s : State} {op : LineOp} (rest : List LineOp) (h : s.opSucceeds op = true) :
    s.performOps (op :: rest) = (s.performOp op).performOps rest := by
  simp [State.performOps, h]

theorem State.performOps_cons_fail {s : State} {op : LineOp} (rest : List LineOp) (h : s.opSucceeds op = false) :
    s.performOps (op :: rest) = s.performOp op := by
  simp [State.performOps, h]

/-! ### Line operations with a display running, in full -/

theorem State.performOp_write_ok_busy {s : State} {seq : List LineOp} {pc : Nat} {origin : Origin} (line : Line) (v : Bool)
    (ht : s.tx = .busy seq pc origin) (ha : s.nextAnswer = true) :
    s.performOp (.write line v) = { s with
      clk := if line = .clock then levelOf v else s.clk
      dat := if line = .data then levelOf v else s.dat
      tx := .busy seq (pc + 1) origin
      answers := s.answers.tail
      attempts := s.attempts + 1
      log := s.log ++ [.write line v true] } := by
  rw [State.performOp_write_ok _ _ ha]
  cases line <;>
    simp [State.lineWrite, State.advance, State.setLatch, ht, ha, State.setTx, State.record, State.useAnswer]

theorem State.performOp_write_fail_busy {s : State} {seq : List LineOp} {pc : Nat} {origin : Origin} (line : Line)
    (v : Bool) (ht : s.tx = .busy seq pc origin) (ha : s.nextAnswer = false) :
    s.performOp (.write line v) = { s with
      clk := if line = .clock then .unknown else s.clk
      dat := if line = .data then .unknown else s.dat
      tx := .idle
      resp := some (.lineWriteFailed pc line)
      answers := s.answers.tail
      attempts := s.attempts + 1
      log := s.log ++ [.write line v false]
      delivered := s.delivered ++ [.lineWriteFailed pc line] } := by
  rw [State.performOp_write_fail _ _ ha]
  cases line <;>
    simp [State.lineWrite, State.abortDisplay, State.setLatch, ht, ha, State.setTx, State.record, State.useAnswer,
      State.respond, State.abortAt]

theorem State.performOp_wait_busy {s : State} {seq : List LineOp} {pc : Nat} {origin : Origin} (d : Nat)
    (ht : s.tx = .busy seq pc origin) :
    s.performOp (.wait d) = { s with tx := .busy seq (pc + 1) origin, log := s.log ++ [.wait d] } := by
  simp [State.performOp, State.advance, State.setTx, State.record, ht]

/-- A line operation leaves the response alone, or delivers one and stores it. -/
theorem State.performOp_resp (s : State) (op : LineOp) :
    ((s.performOp op).resp = s.resp ∧ (s.performOp op).delivered = s.delivered) ∨
      ∃ r, (s.performOp op).resp = some r ∧ (s.performOp op).delivered = s.delivered ++ [r] := by
  cases op with
  | wait d => left; simp [State.performOp]
  | write line v =>
    cases hn : s.nextAnswer with
    | true => left; rw [State.performOp_write_ok _ _ hn]; simp
    | false =>
      rw [State.performOp_write_fail _ _ hn]
      cases htx : s.tx with
      | idle => left; simp [htx]
      | busy seq pc origin => right; exact ⟨_, by simp [htx]; rfl, by simp [htx]⟩

theorem State.answerAt_zero (s : State) : s.answerAt 0 = s.nextAnswer := by
  unfold State.answerAt State.nextAnswer
  cases s.answers <;> rfl

/-- Once one attempt is answered the later answers move up by one. -/
theorem State.answerAt_succ {s t : State} (ha : t.answers = s.answers.tail) (hn : t.attempts = s.attempts + 1) (k : Nat) :
    s.answerAt (k + 1) = t.answerAt k := by
  unfold State.answerAt
  rw [ha, hn, List.getElem?_tail, Nat.add_assoc, Nat.add_comm 1]

/-- The answers of a list that stands first in `answers`. -/
theorem State.answerAt_append {s : State} {front rest : List Bool} (h : s.answers = front ++ rest) {k : Nat}
    (hk : k < front.length) : s.answerAt k = front[k] := by
  simp [State.answerAt, h, List.getElem?_append_left hk, List.getElem?_eq_getElem hk]

/-- What line operations do when the environment answers ok to every LineWrite among them. -/
theorem State.performOps_ok (ops : List LineOp) : ∀ (s : State) (seq : List LineOp) (pc : Nat) (origin : Origin),
    s.tx = .busy seq pc origin → (∀ j < ops.countP isWrite, s.answerAt j = true) →
    s.performOps ops = { s with
      clk := ((lastWrite .clock ops).map levelOf).getD s.clk
      dat := ((lastWrite .data ops).map levelOf).getD s.dat
      tx := .busy seq (pc + ops.length) origin
      answers := s.answers.drop (ops.countP isWrite)
      attempts := s.attempts + ops.countP isWrite
      log := s.log ++ ops.map okToken } := by
  induction ops with
  | nil =>
    intro s seq pc origin ht ha
    cases s
    simp_all [State.performOps, lastWrite]
  | cons op ops ih =>
    intro s seq pc origin ht ha
    cases op with
    | wait d =>
      rw [State.performOps_cons_ok _ (by rfl), State.performOp_wait_busy d ht,
        ih _ seq (pc + 1) origin rfl (by intro j hj; exact ha j (by simpa [isWrite] using hj))]
      simp [lastWrite_cons, isWrite, okToken, Nat.add_assoc, Nat.add_comm 1]
    | write line v =>
      have hc : List.countP isWrite (.write line v :: ops) = ops.countP isWrite + 1 := by simp [isWrite, List.countP_cons]
      rw [hc] at ha
      have hn : s.nextAnswer = true := by rw [← s.answerAt_zero]; exact ha 0 (by omega)
      rw [State.performOps_cons_ok _ (by simpa [State.opSucceeds] using hn), State.performOp_write_ok_busy line v ht hn,
        ih _ seq (pc + 1) origin rfl (by
          intro j hj
          rw [← State.answerAt_succ (s := s) rfl rfl]
          exact ha (j + 1) (by omega))]
      cases line
      · cases h : lastWrite .clock ops <;>
          simp [lastWrite_cons, isWrite, okToken, Nat.add_assoc, Nat.add_comm 1, h, List.countP_cons]
      · cases h : lastWrite .data ops <;>
          simp [lastWrite_cons, isWrite, okToken, Nat.add_assoc, Nat.add_comm 1, h, List.countP_cons]

/-! ### Which instructions touch what -/

/-- An instruction that is no command of the port: a line operation or a wire frame. -/
theorem exec_sameBlock {i : Instr} {s t : State} (hc : i.isCommand = false) (h : exec i s = .next t) : SameBlock s t := by
  cases i with
  | setData v => obtain ⟨-, rfl⟩ := whenLive_next h; exact State.performOp_sameBlock _ _
  | setClk v => obtain ⟨-, rfl⟩ := whenLive_next h; exact State.performOp_sameBlock _ _
  | wait d => obtain ⟨-, rfl⟩ := whenLive_next h; exact State.performOp_sameBlock _ _
  | startFrame => obtain ⟨-, rfl⟩ := whenLive_next h; exact State.performOps_sameBlock _ _
  | endFrame => obtain ⟨-, rfl⟩ := whenLive_next h; exact State.performOps_sameBlock _ _
  | ledFrame level blue green red => obtain ⟨-, rfl⟩ := whenLive_next h; exact State.performOps_sameBlock _ _
  | _ => simp [Instr.isCommand] at hc

/-- A command drives no line and keeps the configuration; it answers at most one response. -/
theorem exec_command_frame {i : Instr} {s t : State} (hc : i.isCommand = true) (h : exec i s = .next t) :
    s.life = .live ∧ t.life = s.life ∧ t.clk = s.clk ∧ t.dat = s.dat ∧ t.cfg = s.cfg ∧ t.inbox = s.inbox ∧
      t.answers = s.answers ∧ t.attempts = s.attempts ∧ t.log = s.log ∧ t.grain = s.grain ∧
      ((t.resp = s.resp ∧ t.delivered = s.delivered) ∨ ∃ r, t.resp = some r ∧ t.delivered = s.delivered ++ [r]) := by
  cases i with
  | setData v => simp [Instr.isCommand] at hc
  | setClk v => simp [Instr.isCommand] at hc
  | wait d => simp [Instr.isCommand] at hc
  | startFrame => simp [Instr.isCommand] at hc
  | endFrame => simp [Instr.isCommand] at hc
  | ledFrame level blue green red => simp [Instr.isCommand] at hc
  | _ => obtain ⟨hl, ⟨-, rfl⟩ | ⟨-, rfl⟩⟩ := whenReady_next h <;> simp [hl]

/-! ### Slots -/

/-- A slot read after a write: the pixel written at a mapped index, every other slot as before (20_memory R52). -/
theorem readSlot_writeSlot {cfg : Config} {buf : List Pixel} (h : buf.length = cfg.nPixels) (index j : Nat) (pixel : Pixel) :
    readSlot (writeSlot cfg buf index pixel) j = if j = index ∧ j < cfg.nPixels then some pixel else readSlot buf j := by
  simp only [readSlot, writeSlot, mapped]
  grind

@[simp] theorem writeSlot_length (cfg : Config) (buf : List Pixel) (index : Nat) (pixel : Pixel) :
    (writeSlot cfg buf index pixel).length = buf.length := by
  unfold writeSlot
  split <;> simp

@[simp] theorem allOff_length (cfg : Config) : (allOff cfg).length = cfg.nPixels := by simp [allOff]

@[simp] theorem encodeBuffer_length (cfg : Config) (buf : List Pixel) : (encodeBuffer cfg buf).length = buf.length := by
  simp [encodeBuffer]

/-! ### Who moves next -/

theorem nextMove_idle {s : State} (h : s.tx = .idle) : nextMove s = hostMove s := by
  simp [nextMove, h]

theorem nextMove_busy {s : State} {seq : List LineOp} {pc : Nat} {origin : Origin} (h : s.tx = .busy seq pc origin) :
    nextMove s = transmitterMove s seq pc := by
  simp [nextMove, h]

theorem step_of_run {s t : State} {i : Instr} (h : nextMove s = .run i t) : step s = exec i t := by
  simp [step, h]

theorem step_of_other {s : State} {o : Host.Outcome State Fault Refusal} (h : nextMove s = .other o) : step s = o := by
  simp [step, h]

/-- A line operation as an instruction performs just that operation. -/
theorem exec_instrOfOp {s : State} (op : LineOp) (hl : s.life = .live) :
    exec (instrOfOp op) s = .next (s.performOp op) := by
  cases op with
  | write line v => cases line <;> simp [instrOfOp, exec, execSetClk, execSetData, whenLive, hl]
  | wait d => simp [instrOfOp, exec, execWait, whenLive, hl]

/-- The step of a LIVE block that runs a display at the spec's grain, before the end of the sequence. -/
theorem step_busy_op {s : State} {seq : List LineOp} {pc : Nat} {origin : Origin} {op : LineOp} (hl : s.life = .live)
    (hg : s.grain = .op) (ht : s.tx = .busy seq pc origin) (hop : seq[pc]? = some op) :
    step s = .next (s.performOp op) := by
  obtain ⟨hlt, hget⟩ := List.getElem?_eq_some_iff.mp hop
  have hd : seq.drop pc = op :: seq.drop (pc + 1) := by rw [List.drop_eq_getElem_cons hlt, hget]
  rw [step_of_run (i := instrOfOp op) (t := s), exec_instrOfOp op hl]
  simp [nextMove_busy ht, transmitterMove, hd, fetchTx, hg]

/-- The step at the end of the sequence. -/
theorem step_busy_end {s : State} {seq : List LineOp} {origin : Origin} (ht : s.tx = .busy seq seq.length origin) :
    step s = .next s.completeDisplay := by
  rw [step_of_other (o := .next s.completeDisplay)]
  simp [nextMove_busy ht, transmitterMove]

/-- Every next state of a block that runs a display, at either grain. -/
theorem step_busy_cases {s t : State} {seq : List LineOp} {pc : Nat} {origin : Origin} (ht : s.tx = .busy seq pc origin)
    (h : step s = .next t) :
    (∃ op rest, seq.drop pc = op :: rest ∧ exec (fetchTx s.grain s.cfg op rest) s = .next t) ∨
      (pc = seq.length ∧ t = s.completeDisplay) := by
  unfold step at h
  rw [nextMove_busy ht] at h
  unfold transmitterMove at h
  split at h
  · rename_i i s' heq
    split at heq
    · cases heq
      exact .inl ⟨_, _, by assumption, h⟩
    · split at heq <;> cases heq
  · rename_i o heq
    split at heq
    · cases heq
    · split at heq <;> cases heq <;> cases h
      exact .inr ⟨by assumption, rfl⟩

/-- The bytes of the command port decode to commands only. -/
theorem decodeCmd_isCommand {fmt : BFmt} {bytes : List Byte} {i : Instr} (h : decodeCmd fmt bytes = .ok i) :
    i.isCommand = true := by
  unfold decodeCmd at h
  split at h
  · cases h
  · split at h
    · cases h
      rename_i heq
      unfold decodeOperands decodeBare decodeSet at heq
      grind [Instr.isCommand, Option.map_eq_some_iff]
    · cases h

/-- A command of the abstract record is a command. -/
theorem isRecord_isCommand {fmt : BFmt} {i : Instr} (h : i.isRecord fmt = true) : i.isCommand = true := by
  cases i <;> first | rfl | cases h

/-- Every next state of an IDLE block: it waits, runs a command, or takes a lifecycle step. -/
theorem step_idle_cases {s t : State} (ht : s.tx = .idle) (h : step s = .next t) :
    (s.inbox = [] ∧ t = s) ∨
    (∃ item rest i, s.inbox = item :: rest ∧
      ((∃ bytes, item = .command bytes ∧ decode s.cfg (.cmd bytes) = .ok i) ∨
        (item = .record i ∧ i.isRecord s.cfg.bfmt = true)) ∧
      i.isCommand = true ∧ exec i (s.setInbox rest) = .next t) ∨
    (∃ cfg a b buf rest, s.inbox = .construct cfg a b buf :: rest ∧ s.life = .absent ∧
      ((a = true ∧ b = true ∧ t = (s.setInbox rest).build cfg buf) ∨
        t = (s.setInbox rest).deliver .lineAcquireFailed)) ∨
    (∃ rest, s.inbox = .teardown :: rest ∧ s.life = .live ∧ t = (s.setInbox rest).setLife .released) ∨
    (∃ rest, s.inbox = .renew :: rest ∧ s.life = .released ∧ t = (s.setInbox rest).setLife .absent) := by
  unfold step at h
  rw [nextMove_idle ht] at h
  unfold hostMove at h
  split at h
  · rename_i i s' heq
    split at heq <;> try cases heq
    · rename_i bytes rest hin
      split at heq
      · cases heq
        rename_i hd
        exact .inr (.inl ⟨_, rest, i, hin, .inl ⟨bytes, rfl, hd⟩, decodeCmd_isCommand hd, h⟩)
      · cases heq
    · rename_i i' rest hin
      split at heq
      · cases heq
        rename_i hr
        exact .inr (.inl ⟨_, rest, i, hin, .inr ⟨rfl, hr⟩, isRecord_isCommand hr, h⟩)
      · cases heq
  · rename_i o heq
    subst h
    split at heq
    · cases heq
      exact .inl ⟨by assumption, rfl⟩
    · split at heq <;> cases heq
    · split at heq <;> cases heq
    · rename_i cfg a b buf rest hin
      have h : constructDriver cfg a b buf (s.setInbox rest) = .next t := by injection heq
      unfold constructDriver at h
      split at h
      · rename_i hl
        refine .inr (.inr (.inl ⟨cfg, a, b, buf, rest, hin, hl, ?_⟩))
        split at h
        · rename_i hab
          cases h
          simp only [Bool.and_eq_true] at hab
          exact .inl ⟨hab.1, hab.2, rfl⟩
        · cases h
          exact .inr rfl
      · cases h
    · rename_i rest hin
      have h : teardown (s.setInbox rest) = .next t := by injection heq
      obtain ⟨hl, ⟨-, rfl⟩ | ⟨hb, -⟩⟩ := whenReady_next h
      · exact .inr (.inr (.inr (.inl ⟨rest, hin, hl, rfl⟩)))
      · exact absurd ht hb
    · rename_i rest hin
      have h : renew (s.setInbox rest) = .next t := by injection heq
      unfold renew at h
      split at h
      · cases h
        rename_i hl
        exact .inr (.inr (.inr (.inr ⟨rest, hin, hl, rfl⟩)))
      · cases h

/-! ### Runs -/

theorem runFor_succ (n : Nat) (s : State) : runFor (n + 1) s = match step s with
    | .next t => runFor n t
    | .fault r => .fault r
    | .refused r => .refused r := rfl

theorem runFor_add {a : Nat} (b : Nat) {s t : State} (h : runFor a s = .next t) : runFor (a + b) s = runFor b t := by
  induction a generalizing s with
  | zero => cases h; simp
  | succ a ih =>
    rw [show a + 1 + b = (a + b) + 1 by omega, runFor_succ]
    rw [runFor_succ] at h
    split at h <;> rename_i heq
    · exact ih h
    all_goals cases h

end Sys2Proof.Machine
end

