-- ==== Sys2Proof/Laws/PerInstr.lean ====
section
/-! SUPPORT. The family CodeBits: the code of an instruction has the number of bits of its format
(30_encoding R71, R73, R74, R79, R83). One lemma per constructor of Instr. -/

namespace Sys2Proof.Laws.CodeBits

/-- The bits of a brightness operand (30_encoding R80). -/
def brightnessBits : BFmt → Nat
  | .binary32 => 32
  | .binary64 => 64

/-- The number of bits of an instruction's format. -/
def formatBits (cfg : Config) : Instr → Nat
  | .set _ _ => 64 + brightnessBits cfg.bfmt
  | .clearAll => 8
  | .display => 8
  | .size => 8
  | .snapshot => 8
  | .encode _ => 32 + brightnessBits cfg.bfmt
  | .reservedCmd _ => 8
  | .ledFrame _ _ _ _ => 32
  | .startFrame => cfg.startPulses
  | .endFrame => cfg.endPulses
  | .setData _ => 2
  | .setClk _ => 2
  | .wait _ => 0

/-- An instruction's code, where it has one, has its format's number of bits. -/
def Statement (i : Instr) : Prop :=
  ∀ (cfg : Config) (code : Code), encode cfg i = some code → code.bits = formatBits cfg i

theorem encodeBVal_bits (br : BVal) : 8 * (encodeBVal br).length = brightnessBits br.fmt := by
  cases br <;> rfl

/-- It is enough to look at the tables, for a well-formed instruction. -/
theorem of_codeOf {i : Instr} (h : ∀ cfg : Config, i.wf cfg = true → (codeOf cfg i).bits = formatBits cfg i) :
    Statement i := by
  intro cfg code hc
  obtain ⟨hw, rfl⟩ := encode_eq_some.mp hc
  exact h cfg hw

theorem set (index : Nat) (pixel : Pixel) : Statement (.set index pixel) := of_codeOf fun cfg h => by
  have hf : pixel.brightness.fmt = cfg.bfmt := by simp_all [Instr.wf, Pixel.wf]
  have hb := encodeBVal_bits pixel.brightness
  rw [hf] at hb
  simp [codeOf, Code.bits, formatBits, encodePixelOperands, bytesOfWord]
  omega

theorem clearAll : Statement .clearAll := of_codeOf fun _ _ => rfl

theorem display : Statement .display := of_codeOf fun _ _ => rfl

theorem size : Statement .size := of_codeOf fun _ _ => rfl

theorem snapshot : Statement .snapshot := of_codeOf fun _ _ => rfl

theorem encode (pixel : Pixel) : Statement (.encode pixel) := of_codeOf fun cfg h => by
  have hf : pixel.brightness.fmt = cfg.bfmt := by simp_all [Instr.wf, Pixel.wf]
  have hb := encodeBVal_bits pixel.brightness
  rw [hf] at hb
  simp [codeOf, Code.bits, formatBits, encodePixelOperands]
  omega

theorem reservedCmd (opcode : Byte) : Statement (.reservedCmd opcode) := of_codeOf fun _ _ => rfl

theorem ledFrame (level : BrightLevel) (blue green red : Byte) : Statement (.ledFrame level blue green red) :=
  of_codeOf fun _ _ => rfl

theorem startFrame : Statement .startFrame := of_codeOf fun cfg _ => by simp [codeOf, Code.bits, formatBits]

theorem endFrame : Statement .endFrame := of_codeOf fun cfg _ => by simp [codeOf, Code.bits, formatBits]

theorem setData (v : Bool) : Statement (.setData v) := of_codeOf fun _ _ => rfl

theorem setClk (v : Bool) : Statement (.setClk v) := of_codeOf fun _ _ => rfl

theorem wait (d : Nat) : Statement (.wait d) := of_codeOf fun _ _ => rfl

end Sys2Proof.Laws.CodeBits
end

