-- ==== Sys2Proof/Machine/Asm.lean ====
section
/-! DEFINITION. The lines of the spec's programs (30_encoding R84), with the pseudo-forms expanded (R85), as what the host
does. A line is its abstract syntax here, the brightness a value of BFMT; Machine/AsmText.lean reads the text. -/

namespace Sys2Proof.Machine

/-- One line of a program (30_encoding R84, R85). -/
inductive AsmLine where
  | set (index : Nat) (red green blue : Byte) (brightness : BVal)
  /-- The pseudo-form SET index, OFF. -/
  | setOff (index : Nat)
  | clearAll
  | display
  | size
  | snapshot
  | encode (red green blue : Byte) (brightness : BVal)
  /-- The pseudo-form ENCODE OFF. -/
  | encodeOff
  | constructDriver (cfg : Config) (clkAcquired dataAcquired : Bool) (initBuf : List Pixel)
  | teardown
  deriving DecidableEq, Repr

/-- The mnemonic of a line (30_encoding R84). -/
def AsmLine.mnemonic : AsmLine → String
  | .set _ _ _ _ _ => "SET"
  | .setOff _ => "SET"
  | .clearAll => "CLEAR_ALL"
  | .display => "DISPLAY"
  | .size => "SIZE"
  | .snapshot => "SNAPSHOT"
  | .encode _ _ _ _ => "ENCODE"
  | .encodeOff => "ENCODE"
  | .constructDriver _ _ _ _ => "CONSTRUCT_DRIVER"
  | .teardown => "TEARDOWN"

/-- PIXEL(red, green, blue, brightness): no validation (40_pixel_model R100). -/
def pixelOf (red green blue : Byte) (brightness : BVal) : Pixel :=
  { red := red, green := green, blue := blue, brightness := brightness }

/-- The command of a line; none for the lifecycle steps. -/
def AsmLine.command (fmt : BFmt) : AsmLine → Option Instr
  | .set index red green blue brightness => some (.set index (pixelOf red green blue brightness))
  | .setOff index => some (.set index (off fmt))
  | .clearAll => some .clearAll
  | .display => some .display
  | .size => some .size
  | .snapshot => some .snapshot
  | .encode red green blue brightness => some (.encode (pixelOf red green blue brightness))
  | .encodeOff => some (.encode (off fmt))
  | .constructDriver _ _ _ _ => none
  | .teardown => none

/-- The bytes of a command on the port, none where the binary format cannot spell it (30_encoding R80). -/
def commandBytes (cfg : Config) (i : Instr) : Option (List Byte) :=
  match encode cfg i with
  | some (.cmd bytes) => some bytes
  | _ => none

/-- How the host presents a command: as bytes on the port, and as the abstract record where the binary format cannot spell
it, a SET whose index is above 2^32 - 1 (30_encoding R80). DESIGN CHOICE, safe (log entry 27): the spec names no way for the
host to choose between the two. -/
def presentCommand (cfg : Config) (i : Instr) : HostItem :=
  match commandBytes cfg i with
  | some bytes => .command bytes
  | none => .record i

/-- What the host does for a line. -/
def AsmLine.item (cfg : Config) (line : AsmLine) : HostItem :=
  match line.command cfg.bfmt, line with
  | some i, _ => presentCommand cfg i
  | none, .constructDriver cfg clkAcquired dataAcquired initBuf => .construct cfg clkAcquired dataAcquired initBuf
  | none, _ => .teardown

end Sys2Proof.Machine
end

