-- ==== Sys2Proof/Machine/AsmText.lean ====
section
/-! DEFINITION. The text of the spec's programs (30_encoding R84, R85): one line of characters read as an AsmLine. -/

namespace Sys2Proof.Machine

/-! ### Numbers: decimal, or hexadecimal after 0x -/

/-- The value of a digit, up to base 16. -/
def digitValue (c : Char) : Option Nat :=
  if 48 ≤ c.toNat ∧ c.toNat ≤ 57 then some (c.toNat - 48)
  else if 65 ≤ c.toNat ∧ c.toNat ≤ 70 then some (c.toNat - 55)
  else if 97 ≤ c.toNat ∧ c.toNat ≤ 102 then some (c.toNat - 87)
  else none

/-- The digits of a base, read after the value `acc`. -/
def readDigits (base : Nat) : Nat → List Char → Option Nat
  | acc, [] => some acc
  | acc, c :: rest =>
    match digitValue c with
    | some v => if v < base then readDigits base (acc * base + v) rest else none
    | none => none

/-- A natural number. -/
def readNat : List Char → Option Nat
  | [] => none
  | '0' :: 'x' :: c :: rest => readDigits 16 0 (c :: rest)
  | c :: rest => readDigits 10 0 (c :: rest)

/-- A channel: a u8. -/
def readByte (cs : List Char) : Option Byte :=
  match readNat cs with
  | some n => if n < 256 then some (BitVec.ofNat 8 n) else none
  | none => none

/-! ### A decimal real as a value of BFMT (log entry 24) -/

/-- `n / d` rounded to nearest, ties to even. -/
def roundRatio (n d : Nat) : Nat :=
  let q := n / d
  let r := n % d
  if 2 * r < d then q
  else if d < 2 * r then q + 1
  else q + q % 2

/-- The bits, but for the sign, of `n / d` rounded to nearest in a format of precision `p`, smallest exponent `-low` and
exponent field `eMax` for an infinity, which a number past the largest finite one becomes. -/
def ratioBits (p low eMax n d : Nat) : Nat :=
  let e₀ := max (-(low : Int)) ((Nat.log2 n : Int) - Nat.log2 d - p)
  let scaled (e : Int) : Nat × Nat := if 0 ≤ e then (n, d * 2 ^ e.toNat) else (n * 2 ^ (-e).toNat, d)
  let e := if (scaled e₀).1 < (scaled e₀).2 * 2 ^ p then e₀ else e₀ + 1
  let m := roundRatio (scaled e).1 (scaled e).2
  let bits := if m < 2 ^ (p - 1) then m else (e + low).toNat * 2 ^ (p - 1) + m
  min bits (eMax * 2 ^ (p - 1))

/-- A signed ratio as a value of a format. -/
def ratioBVal (negative : Bool) (n d : Nat) : BFmt → BVal
  | .binary32 => .b32 (BitVec.ofBool negative ++ BitVec.ofNat 31 (ratioBits 24 149 255 n d))
  | .binary64 => .b64 (BitVec.ofBool negative ++ BitVec.ofNat 63 (ratioBits 53 1074 2047 n d))

/-- A decimal real written with a point, as the ratio of all its digits to the power of ten after the point. -/
def readRatio (cs : List Char) : Option (Nat × Nat) :=
  match cs.span fun c => c != '.' with
  | (whole, '.' :: c :: fraction) =>
    match whole, readDigits 10 0 (whole ++ c :: fraction) with
    | [], _ => none
    | _ :: _, some n => some (n, 10 ^ (fraction.length + 1))
    | _ :: _, none => none
  | _ => none

/-- The brightness operand. A sign may stand before it (40_pixel_model R100 takes negative values). -/
def readBrightness (fmt : BFmt) : List Char → Option BVal
  | '-' :: cs => (readRatio cs).map fun r => ratioBVal true r.1 r.2 fmt
  | cs => (readRatio cs).map fun r => ratioBVal false r.1 r.2 fmt

/-! ### Lines -/

/-- Drops the blanks around a word. -/
def trimBlanks (cs : List Char) : List Char :=
  ((cs.dropWhile fun c => c == ' ').reverse.dropWhile fun c => c == ' ').reverse

/-- The operands between commas, read from the right. -/
def splitCommas : List Char → List (List Char)
  | [] => [[]]
  | c :: rest =>
    match splitCommas rest with
    | [] => [[c]]
    | word :: words => if c == ',' then [] :: word :: words else (c :: word) :: words

/-- The operands of a line, none when nothing follows the mnemonic. -/
def readOperands (cs : List Char) : List (List Char) :=
  match trimBlanks cs with
  | [] => []
  | c :: rest => (splitCommas (c :: rest)).map trimBlanks

/-- Four operands of a pixel. -/
def readPixel (fmt : BFmt) (red green blue brightness : List Char) : Option Pixel :=
  match readByte red, readByte green, readByte blue, readBrightness fmt brightness with
  | some r, some g, some b, some v => some (pixelOf r g b v)
  | _, _, _, _ => none

/-- SET index, red, green, blue, brightness; or SET index, OFF. -/
def readSet (fmt : BFmt) : List (List Char) → Option AsmLine
  | [index, red, green, blue, brightness] =>
    match readNat index, readPixel fmt red green blue brightness with
    | some i, some p => some (.set i p.red p.green p.blue p.brightness)
    | _, _ => none
  | [index, ['O', 'F', 'F']] => (readNat index).map AsmLine.setOff
  | _ => none

/-- ENCODE red, green, blue, brightness; or ENCODE OFF. -/
def readEncode (fmt : BFmt) : List (List Char) → Option AsmLine
  | [red, green, blue, brightness] =>
    (readPixel fmt red green blue brightness).map fun p => .encode p.red p.green p.blue p.brightness
  | [['O', 'F', 'F']] => some .encodeOff
  | _ => none

/-- A line without operands. -/
def readBare (line : AsmLine) : List (List Char) → Option AsmLine
  | [] => some line
  | _ :: _ => none

/-- One line of a program: none if it is no line of the syntax, the empty list for a blank line or a comment alone. What
CONSTRUCT_DRIVER does is `construct`: its operands are not written in the text. -/
def readLine (fmt : BFmt) (construct : AsmLine) (cs : List Char) : Option (List AsmLine) :=
  let body := trimBlanks (cs.takeWhile fun c => c != ';')
  let mnemonic := body.takeWhile fun c => c != ' '
  let operands := readOperands (body.dropWhile fun c => c != ' ')
  let line :=
    if mnemonic = "SET".toList then readSet fmt operands
    else if mnemonic = "CLEAR_ALL".toList then readBare .clearAll operands
    else if mnemonic = "DISPLAY".toList then readBare .display operands
    else if mnemonic = "SIZE".toList then readBare .size operands
    else if mnemonic = "SNAPSHOT".toList then readBare .snapshot operands
    else if mnemonic = "ENCODE".toList then readEncode fmt operands
    else if mnemonic = "CONSTRUCT_DRIVER".toList then readBare construct operands
    else if mnemonic = "TEARDOWN".toList then readBare .teardown operands
    else none
  match body with
  | [] => some []
  | _ :: _ => line.map fun l => [l]

end Sys2Proof.Machine
end

