-- ==== Sys2Proof/Tests/Slice0.lean ====
section
/-! SUPPORT. Small tests, each with its expected value from the spec's tables and vectors; and for every statement that has
hypotheses a witness that meets them together. -/

namespace Sys2Proof.Tests

open Sys2Proof.Machine

/-! ### Helpers -/

/-- A pixel with a binary32 brightness. -/
def pix (red green blue : Byte) (brightness : BitVec 32) : Pixel :=
  { red := red, green := green, blue := blue, brightness := .b32 brightness }

/-- A pixel with a binary64 brightness. -/
def pixWide (red green blue : Byte) (brightness : BitVec 64) : Pixel :=
  { red := red, green := green, blue := blue, brightness := .b64 brightness }

/-- The machine after reset with the line environment's answers given. -/
def withAnswers (answers : List Bool) : State := { State.reset with answers := answers }

/-- A LIVE block that runs `seq`, at `pc`. -/
def running (seq : List LineOp) (pc : Nat) (answers : List Bool) : State :=
  { State.reset with tx := .busy seq pc .display, answers := answers }

/-- What the host will do, on a block in the given life. -/
def hostWill (life : Life) (items : List HostItem) : State := { State.reset with life := life, inbox := items }

/-- The bytes of the response after an outcome. -/
def responseBytes : Host.Outcome State Fault Refusal → Option (List Byte)
  | .next s => s.resp.map Response.bytes
  | _ => none

/-- The trace tokens after an outcome, as text. -/
def tokens : Host.Outcome State Fault Refusal → List String
  | .next s => s.log.map Token.text
  | _ => []

/-- The latches after an outcome. -/
def latches : Host.Outcome State Fault Refusal → Option (Level × Level)
  | .next s => some (s.clk, s.dat)
  | _ => none

/-- Whether an outcome is a next state. -/
def isNext : Host.Outcome State Fault Refusal → Bool
  | .next _ => true
  | _ => false

/-- BFMT binary64. -/
def wide : Config := { Config.default with bfmt := .binary64 }

/-- The configuration after reset has the source's literals (00_scope R17), and so has the one with binary64. -/
theorem literals : Config.default.SourceLiterals := ⟨rfl, rfl, rfl, rfl, rfl, rfl⟩

theorem literals_wide : wide.SourceLiterals := ⟨rfl, rfl, rfl, rfl, rfl, rfl⟩

/-- A variant of the source's numbers (00_scope R17): two pixels, 40 end pulses, a mask of four bits. -/
def variant : Config := { Config.default with nPixels := 2, endPulses := 40, levelMask := 0b00001111 }

/-- Eight words, the last that of program P2's slot 7 (95_test_vectors P2). -/
def sampleWords : List WireWord :=
  [.ofWord 0xFF0000FF#32, .ofWord 0xE0000000#32, .ofWord 0xE0000000#32, .ofWord 0xE0000000#32, .ofWord 0xE0000000#32,
    .ofWord 0xE0000000#32, .ofWord 0xE0000000#32, .ofWord 0xEF563412#32]

/-- A start frame, an end frame, and a display of the sample words, with the source's literals. -/
abbrev startSeq : List LineOp := startOps Config.default

abbrev endSeq : List LineOp := endOps Config.default

abbrev sampleSeq : List LineOp := displayOps Config.default sampleWords

/-! ### WellFormed: an ill-formed term for each check -/

-- 30_encoding R80: an index above 2^32 - 1 cannot be spelled
theorem test_wf_index : (Instr.set (2 ^ 32) (pix 0#8 0#8 0#8 0#32)).wf Config.default = false ∧
    (Instr.set (2 ^ 32 - 1) (pix 0#8 0#8 0#8 0#32)).wf Config.default = true := by decide

-- 10_state R21: a brightness is a value of BFMT
theorem test_wf_set_format : (Instr.set 0 (pixWide 0#8 0#8 0#8 0#64)).wf Config.default = false ∧
    (Instr.set 0 (pixWide 0#8 0#8 0#8 0#64)).wf wide = true := by decide

theorem test_wf_encode_format : (Instr.encode (pixWide 0#8 0#8 0#8 0#64)).wf Config.default = false ∧
    (Instr.encode (pix 0#8 0#8 0#8 0#32)).wf Config.default = true := by decide

-- 30_encoding R81: 0x01 to 0x06 are not reserved
theorem test_wf_reserved : (Instr.reservedCmd 0x01#8).wf Config.default = false ∧
    (Instr.reservedCmd 0x06#8).wf Config.default = false ∧ (Instr.reservedCmd 0x07#8).wf Config.default = true ∧
    (Instr.reservedCmd 0x00#8).wf Config.default = true := by decide

-- 30_encoding R83: the token W is a Wait of D, and D is 0 here
theorem test_wf_wait : (Instr.wait 1).wf Config.default = false ∧ (Instr.wait 0).wf Config.default = true := by decide

-- 30_encoding R71: under a mask of four bits the level 31 cannot be read back from its byte
theorem test_wf_ledFrame : (Instr.ledFrame 31#5 0#8 0#8 0#8).wf variant = false ∧
    (Instr.ledFrame 15#5 0#8 0#8 0#8).wf variant = true ∧
    (Instr.ledFrame 31#5 0#8 0#8 0#8).wf Config.default = true := by decide

-- 30_encoding R78, R80, R81: the abstract record takes a SET of any index, but no reserved opcode and no line operation
theorem test_record : (Instr.set (2 ^ 32) (off .binary32)).isRecord .binary32 = true ∧
    (Instr.set 0 (off .binary64)).isRecord .binary32 = false ∧ (Instr.encode (off .binary64)).isRecord .binary32 = false ∧
    (Instr.reservedCmd 0x07#8).isRecord .binary32 = false ∧ (Instr.setClk true).isRecord .binary32 = false := by decide

/-! ### Decode: words written out from the spec's encodings -/

-- 95_test_vectors P2: SET 7, 0x12, 0x34, 0x56, 0.5
theorem test_decode_set : decode Config.default (.cmd [0x01#8, 0x00#8, 0x00#8, 0x00#8, 0x07#8, 0x12#8, 0x34#8, 0x56#8,
    0x3F#8, 0x00#8, 0x00#8, 0x00#8]) = .ok (.set 7 (pix 0x12#8 0x34#8 0x56#8 0x3F000000#32)) := by decide

-- 30_encoding R80 with BFMT = binary64 (16 bytes): brightness 0.5 is 3FE0000000000000; index 0x01020304 is big-endian
theorem test_decode_set_wide : decode wide (.cmd [0x01#8, 0x01#8, 0x02#8, 0x03#8, 0x04#8, 0x12#8, 0x34#8, 0x56#8,
    0x3F#8, 0xE0#8, 0x00#8, 0x00#8, 0x00#8, 0x00#8, 0x00#8, 0x00#8]) =
    .ok (.set 0x01020304 (pixWide 0x12#8 0x34#8 0x56#8 0x3FE0000000000000#64)) := by decide

-- 30_encoding R79: the opcodes of the commands without operands
theorem test_decode_bare : decode Config.default (.cmd [0x02#8]) = .ok .clearAll ∧
    decode Config.default (.cmd [0x03#8]) = .ok .display ∧ decode Config.default (.cmd [0x04#8]) = .ok .size ∧
    decode Config.default (.cmd [0x05#8]) = .ok .snapshot := by decide

-- 95_test_vectors P3: ENCODE 0, 0, 255, 0.75
theorem test_decode_encode :
    decode Config.default (.cmd [0x06#8, 0x00#8, 0x00#8, 0xFF#8, 0x3F#8, 0x40#8, 0x00#8, 0x00#8]) =
    .ok (.encode (pix 0x00#8 0x00#8 0xFF#8 0x3F400000#32)) := by decide

-- 30_encoding R81: the ends of the reserved range
theorem test_decode_reserved : decode Config.default (.cmd [0x00#8]) = .ok (.reservedCmd 0x00#8) ∧
    decode Config.default (.cmd [0x07#8]) = .ok (.reservedCmd 0x07#8) ∧
    decode Config.default (.cmd [0xFF#8]) = .ok (.reservedCmd 0xFF#8) := by decide

-- 30_encoding R71: 111 01111 01010110 00110100 00010010
theorem test_decode_ledFrame : decode Config.default (.wire32 0b11101111010101100011010000010010#32) =
    .ok (.ledFrame 0b01111#5 0x56#8 0x34#8 0x12#8) := by decide

-- 30_encoding R73, R74
theorem test_decode_frames : decode Config.default (.wireStart (List.replicate 32 false)) = .ok .startFrame ∧
    decode Config.default (.wireEnd (List.replicate 36 false)) = .ok .endFrame := by decide

-- 30_encoding R83: D0 is 00, D1 is 01, C0 is 10, C1 is 11, and a Wait is the token W
theorem test_decode_lineOps : decode Config.default (.lineOp 0b00#2) = .ok (.setData false) ∧
    decode Config.default (.lineOp 0b01#2) = .ok (.setData true) ∧
    decode Config.default (.lineOp 0b10#2) = .ok (.setClk false) ∧
    decode Config.default (.lineOp 0b11#2) = .ok (.setClk true) ∧ decode Config.default .waitToken = .ok (.wait 0) := by
  decide

-- 30_encoding R77, R79: what is refused, by name
theorem test_decode_refused : decode Config.default (.cmd []) = .error .emptyCommand ∧
    decode Config.default (.cmd [0x04#8, 0x00#8]) = .error (.wrongLength 0x04#8 2) ∧
    decode Config.default (.cmd [0x01#8]) = .error (.wrongLength 0x01#8 1) ∧
    decode Config.default (.wire32 0xC0000000#32) = .error (.notAnLedFrame 0xC0000000#32) ∧
    decode Config.default (.wireStart [false]) = .error (.notAStartFrame [false]) ∧
    decode Config.default (.wireEnd [true]) = .error (.notAnEndFrame [true]) := by decide

-- 30_encoding R80: an index above 2^32 - 1 cannot be spelled, so there is no code of it; 2^32 - 1 is FF FF FF FF
theorem test_encode_index : encode Config.default (.set (2 ^ 32) (off .binary32)) = none ∧
    encode Config.default (.set (2 ^ 32 - 1) (off .binary32)) =
      some (.cmd [0x01#8, 0xFF#8, 0xFF#8, 0xFF#8, 0xFF#8, 0#8, 0#8, 0#8, 0#8, 0#8, 0#8, 0#8]) := by decide

/-! ### The pixel model (95_test_vectors, family E) -/

theorem test_quantise_valid : [0x3F000000#32, 0x3E800000#32, 0x3F400000#32, 0x3E000000#32].map
    (fun b => quantise Config.default (.b32 b)) = [15#5, 7#5, 23#5, 3#5] := by decide

-- V-E11, V-E13, V-E15: 1.0625, 2.0, 8.25
theorem test_quantise_wraps : [0x3F880000#32, 0x40000000#32, 0x41040000#32].map
    (fun b => quantise Config.default (.b32 b)) = [0#5, 30#5, 31#5] := by decide

-- V-E16: 9.0 is left to qOOR
theorem test_quantise_open : quantise Config.default (.b32 0x41100000#32) = Config.qOOR (.b32 0x41100000#32) := rfl

-- V-E22, V-E24, V-E27
theorem test_encodePixel : [pix 255#8 0#8 0#8 0x3F800000#32, pix 0#8 0#8 255#8 0x3F400000#32,
      pix 0xAA#8 0x55#8 0x0F#8 0x40000000#32].map (fun p => (encodePixel Config.default p).toWord) =
    [0xFF0000FF#32, 0xF7FF0000#32, 0xFE0F55AA#32] := by decide

/-! ### One step of each instruction -/

-- V-B3, V-B4: index 7 is accepted, index 8 is not
theorem test_set_seven : responseBytes (exec (.set 7 (pix 1#8 2#8 3#8 0x3E000000#32)) State.reset) =
    some [0x00#8, 0x01#8] := by decide

theorem test_set_eight : responseBytes (exec (.set 8 (pix 1#8 2#8 3#8 0x3E000000#32)) State.reset) =
    some [0x00#8, 0x00#8] := by decide

-- V-B1
theorem test_size : responseBytes (exec .size State.reset) = some [0x00#8, 0x00#8, 0x00#8, 0x00#8, 0x08#8] := by decide

-- V-B8 with slot 0 alone set: slot 0's word stands first
theorem test_snapshot : (responseBytes (exec .snapshot
    { State.reset with buf := State.reset.buf.set 0 (pix 255#8 0#8 0#8 0x3F800000#32) })).map (List.take 9) =
    some [0x00#8, 0xFF#8, 0x00#8, 0x00#8, 0xFF#8, 0xE0#8, 0x00#8, 0x00#8, 0x00#8] := by decide

-- V-E29
theorem test_encode : responseBytes (exec (.encode (pix 0#8 0#8 255#8 0x3F400000#32)) State.reset) =
    some [0x00#8, 0xF7#8, 0xFF#8, 0x00#8, 0x00#8] := by decide

-- V-X3
theorem test_reserved : responseBytes (exec (.reservedCmd 0x07#8) State.reset) = some [0x03#8] := by decide

-- V-T12, V-B11: the first DATA write fails
theorem test_data_write_fails : responseBytes (step (running startSeq 0 [false])) =
    some [0x01#8, 0x00#8, 0x00#8, 0x00#8, 0x00#8, 0x00#8] ∧ tokens (step (running startSeq 0 [false])) = ["D0!"] := by
  decide

-- V-T13: the first clock write fails
theorem test_clock_write_fails : responseBytes (step (running startSeq 1 [false])) =
    some [0x01#8, 0x00#8, 0x00#8, 0x00#8, 0x01#8, 0x01#8] ∧
    latches (step (running startSeq 1 [false])) = some (.unknown, .unknown) := by decide

-- 42_transmitter R160's worked example: D1 with ok records D1 and sets dat = L1
theorem test_setData : tokens (exec (.setData true) (withAnswers [true])) = ["D1"] ∧
    latches (exec (.setData true) (withAnswers [true])) = some (.unknown, .l1) := by decide

theorem test_setClk : tokens (exec (.setClk false) (withAnswers [true])) = ["C0"] ∧
    latches (exec (.setClk false) (withAnswers [true])) = some (.l0, .unknown) := by decide

-- 42_transmitter R161's worked example: Wait(0) records W and changes nothing else
theorem test_wait : exec (.wait 0) State.reset = .next { State.reset with log := [.wait 0] } := rfl

-- 42_transmitter R163: the first tokens of a start frame (V-T2), and the lines it leaves low
theorem test_startFrame : (tokens (exec .startFrame (withAnswers (List.replicate 65 true)))).take 6 =
    ["D0", "C1", "W", "C0", "W", "C1"] ∧
    latches (exec .startFrame (withAnswers (List.replicate 65 true))) = some (.l0, .l0) := by decide +kernel

-- V-S9 and V-T3 for the LED frame of 0xFF0000FF: its last bit is 1
theorem test_ledFrame : (tokens (exec (.ledFrame 31#5 0#8 0#8 255#8) (withAnswers (List.replicate 96 true)))).take 10 =
    ["D1", "C1", "W", "C0", "W", "D1", "C1", "W", "C0", "W"] ∧
    latches (exec (.ledFrame 31#5 0#8 0#8 255#8) (withAnswers (List.replicate 96 true))) = some (.l0, .l1) := by decide +kernel

-- 42_transmitter R167: 145 operations
theorem test_endFrame : (tokens (exec .endFrame (withAnswers (List.replicate 73 true)))).length = 145 := by decide +kernel

-- 42_transmitter R175: the bit-cells of SEQ start at 129 (V-T3), the end frame at 1409 (V-T4)
theorem test_positions : (sampleSeq[129]?, sampleSeq[1409]?) =
    (some (.write .data true), some (.write .data false)) := by decide +kernel

-- V-T14: op 170 is the C1 of pulse 40, and its abort is answered by 01 00 00 00 AA 01
theorem test_abort_170 : sampleSeq[170]? = some (.write .clock true) ∧
    responseBytes (step (running sampleSeq 170 [false])) =
      some [0x01#8, 0x00#8, 0x00#8, 0x00#8, 0xAA#8, 0x01#8] := by decide +kernel

-- V-X6: refused after TEARDOWN
theorem test_released : exec .display (hostWill .released []) = .refused .notLive := rfl

-- 30_encoding R80: an index the port cannot spell is out of range as any index of 8 or more (V-B4), slot 0 is not written
theorem test_record_set :
    responseBytes (step (hostWill .live [.record (.set (2 ^ 32) (pix 1#8 2#8 3#8 0x3E000000#32))])) =
    some [0x00#8, 0x00#8] ∧
    writeSlot Config.default State.reset.buf (2 ^ 32) (pix 1#8 2#8 3#8 0x3E000000#32) = State.reset.buf := by decide

-- 30_encoding R81: a model that works on the record refuses a reserved opcode
theorem test_record_reserved : step (hostWill .live [.record (.reservedCmd 0x07#8)]) =
    .refused (.badRecord (.reservedCmd 0x07#8)) := rfl

-- 00_scope R17: the literals are fields; two pixels and 40 end pulses make 1 + 128 + 320 + 1 + 160 operations
theorem test_variant : (displayOps variant [.ofWord 0xE0000000#32, .ofWord 0xE0000000#32]).length = 610 ∧
    responseBytes (exec .size { State.reset with cfg := variant }) = some [0x00#8, 0x00#8, 0x00#8, 0x00#8, 0x02#8] ∧
    responseBytes (exec (.set 2 (off .binary32)) { State.reset with cfg := variant }) = some [0x00#8, 0x00#8] := by
  decide +kernel

-- 42_transmitter R180, R171: the counter form at the C1 of pulse 40 (V-T14); at DONE it completes (R173)
theorem test_counter_abort :
    ((Counter.step sampleWords (running [] 0 [false])
        { phase := .bitP, k := 32, p := 0, j := 1, sr := 0#8, i := 8, mu := .c1 }).1.resp.map Response.bytes,
      (Counter.step sampleWords (running [] 0 []) { Counter.start with phase := .done }).1.resp) =
    (some [0x01#8, 0x00#8, 0x00#8, 0x00#8, 0xAA#8, 0x01#8], some .done) := by decide

/-! ### The words of the opcode table, and the text of programs -/

-- the host's numbering: the first byte in bits 7..0; SET's operand bytes are 0
theorem test_table_words : decodeTableWord 8 0x05 = some .snapshot ∧
    decodeTableWord 8 0x01 = some (.set 0 (off .binary32)) ∧
    decodeTableWord 32 0xE0000000 = some (.ledFrame 0#5 0#8 0#8 0#8) ∧
    decodeTableWord 36 0 = some .endFrame ∧ decodeTableWord 2 0b10 = some (.setClk false) ∧
    decodeTableWord 0 0 = some (.wait 0) := by decide

theorem test_fetch_word : responseBytes (step (State.reset.withFetchWord 8 0x04)) =
    some [0x00#8, 0x00#8, 0x00#8, 0x00#8, 0x08#8] := by decide

-- 95_test_vectors P2, P4 with 30_encoding R84, R85
theorem test_program_line : readLine .binary32 .teardown "SET 7, 0x12, 0x34, 0x56, 0.5  ; 01 00".toList =
    some [.set 7 0x12#8 0x34#8 0x56#8 (.b32 0x3F000000#32)] := by decide

theorem test_program_off :
    (readLine .binary32 .teardown "SET 3, OFF".toList).map (List.map (AsmLine.item Config.default)) =
    some [.command [0x01#8, 0#8, 0#8, 0#8, 0x03#8, 0#8, 0#8, 0#8, 0#8, 0#8, 0#8, 0#8]] := by decide

-- 30_encoding R80: what the host does for a line whose index the port cannot spell (log entry 27)
theorem test_program_high_index :
    (readLine .binary32 .teardown "SET 4294967296, OFF".toList).map (List.map (AsmLine.item Config.default)) =
    some [.record (.set 4294967296 (off .binary32))] := by decide

/-! ### Witnesses: for every statement with hypotheses, an input that meets them together -/

-- SizeRespondsEight, SnapshotRespondsSlotWordsInOrder, ReservedOpcodeRespondsIllegal, ClearAllClearsThenStartsDisplay,
-- DisplayLatchesEncodedBuffer, QueriesAndSetReportOk (and the second clause of the next two)
theorem test_witness_live_idle : State.reset.cfg.SourceLiterals ∧ State.reset.buf.length = State.reset.cfg.nPixels ∧
    State.reset.life = .live ∧ State.reset.tx = .idle := ⟨literals, by decide⟩

-- SetWritesMappedSlotAndReports, EncodeCommandRespondsWord: a pixel of BFMT, in each format
theorem test_witness_pixel_format : (pix 1#8 2#8 3#8 0x3E000000#32).brightness.fmt = Config.default.bfmt ∧
    (pixWide 1#8 2#8 3#8 0#64).brightness.fmt = wide.bfmt := by decide

-- OnlySetAndClearAllChangeSlots, SetFrame: index 7 writes, index 8 does not
theorem test_witness_set_next : State.reset.cfg.SourceLiterals ∧ State.reset.buf.length = State.reset.cfg.nPixels ∧
    State.reset.tx = .idle ∧ isNext (exec (.set 7 (pix 1#8 2#8 3#8 0#32)) State.reset) = true ∧
    isNext (exec (.set 8 (pix 1#8 2#8 3#8 0#32)) State.reset) = true := ⟨literals, by decide⟩

theorem test_witness_set_slots : readSlot (writeSlot Config.default State.reset.buf 7 (pix 1#8 2#8 3#8 0#32)) 7 =
    some (pix 1#8 2#8 3#8 0#32) ∧
    readSlot (writeSlot Config.default State.reset.buf 8 (pix 1#8 2#8 3#8 0#32)) 8 = none := by decide

-- OnlySetAndClearAllChangeSlots, second clause; ResponseOnlyCommandFrame; DisplayCommandFrame
theorem test_witness_other_next : isNext (exec .size State.reset) = true ∧ isNext (exec .snapshot State.reset) = true ∧
    isNext (exec (.encode (off .binary32)) State.reset) = true ∧ isNext (exec (.reservedCmd 0#8) State.reset) = true ∧
    isNext (exec .display State.reset) = true ∧ isNext (exec .clearAll State.reset) = true := by decide

-- ReservedOpcodeRespondsIllegal: the ends of the ranges
theorem test_witness_reserved : ((0x00#8 : Byte) = 0x00#8 ∨ 0x07 ≤ (0x00#8 : Byte).toNat) ∧
    ((0x07#8 : Byte) = 0x00#8 ∨ 0x07 ≤ (0x07#8 : Byte).toNat) ∧
    ((0xFF#8 : Byte) = 0x00#8 ∨ 0x07 ≤ (0xFF#8 : Byte).toNat) := by decide

-- CommandsHeldWhileBusyRefusedWhenNotLive: a RELEASED block, a BUSY one, and a step while BUSY
theorem test_witness_held : Instr.display.isCommand = true ∧ (hostWill .released []).life ≠ .live ∧
    (running startSeq 0 [true]).life = .live ∧ (running startSeq 0 [true]).tx ≠ .idle ∧
    isNext (step (running startSeq 0 [true])) = true := by decide

-- SuccessfulLineWriteStep, FailedLineWriteStepAborts, StepRunsLineOperationAtPosition, LineInstructionsComplete
theorem test_witness_write : (running startSeq 0 [true]).life = .live ∧ (running startSeq 0 [true]).grain = .op ∧
    (running startSeq 0 [false]).life = .live ∧ (running startSeq 0 [false]).grain = .op ∧
    (running startSeq 0 [false]).tx = .busy startSeq 0 .display ∧
    (running startSeq 0 [true]).tx = .busy startSeq 0 .display ∧ startSeq[0]? = some (.write .data false) ∧
    (running startSeq 0 [true]).nextAnswer = true ∧ (running startSeq 0 [false]).nextAnswer = false := by decide

theorem test_witness_clock_write : (running startSeq 127 [false]).life = .live ∧
    (running startSeq 127 [false]).grain = .op ∧
    (running startSeq 127 [false]).tx = .busy startSeq 127 .display ∧
    startSeq[127]? = some (.write .clock false) ∧ (running startSeq 127 [false]).nextAnswer = false := by decide

-- WaitStepMovesPosition, CompletionStepRespondsOk, StepRunsLineOperationAtPosition: the last Wait, then the end
theorem test_witness_wait : (running startSeq 128 []).life = .live ∧ (running startSeq 128 []).grain = .op ∧
    (running startSeq 128 []).tx = .busy startSeq 128 .display ∧
    startSeq[128]? = some (.wait 0) ∧
    (running startSeq 129 []).tx = .busy startSeq startSeq.length .display := by decide +kernel

-- LineOperationFrame
theorem test_witness_line_next : isNext (exec (.setData true) (withAnswers [true])) = true ∧
    isNext (exec (.setClk true) (withAnswers [false])) = true ∧ isNext (exec (.wait 0) State.reset) = true := by decide

-- LineInstructionsOutsideADisplay: not LIVE; then LIVE and IDLE is test_witness_live_idle
theorem test_witness_line_refused : (Instr.setData true).isCommand = false ∧ Instr.startFrame.isCommand = false ∧
    (hostWill .absent []).life ≠ .live := by decide

/-- Answers ok for as long as the list lasts. -/
theorem answerAt_replicate {s : State} {n : Nat} (h : s.answers = List.replicate n true) (j : Nat) (hj : j < n) :
    s.answerAt j = true := by
  rw [State.answerAt_append (front := List.replicate n true) (rest := []) (by simpa using h) (by simpa using hj)]
  simp

-- StartFrameSendsThirtyTwoPulses
theorem test_witness_startFrame : (running startSeq 0 (List.replicate 65 true)).cfg.SourceLiterals ∧
    (running startSeq 0 (List.replicate 65 true)).life = .live ∧
    (running startSeq 0 (List.replicate 65 true)).tx = .busy startSeq 0 .display ∧
    ∀ j < 65, (running startSeq 0 (List.replicate 65 true)).answerAt j = true :=
  ⟨literals, rfl, rfl, fun j hj => answerAt_replicate rfl j hj⟩

-- LedFrameSendsThirtyTwoBits
theorem test_witness_ledFrame :
    (running sampleSeq 129 (List.replicate 96 true)).cfg.SourceLiterals ∧
    (running sampleSeq 129 (List.replicate 96 true)).life = .live ∧
    (running sampleSeq 129 (List.replicate 96 true)).tx = .busy sampleSeq 129 .display ∧
    ∀ j < 96, (running sampleSeq 129 (List.replicate 96 true)).answerAt j = true :=
  ⟨literals, rfl, rfl, fun j hj => answerAt_replicate rfl j hj⟩

-- EndFrameSendsThirtySixPulses
theorem test_witness_endFrame : (running endSeq 0 (List.replicate 73 true)).cfg.SourceLiterals ∧
    (running endSeq 0 (List.replicate 73 true)).life = .live ∧
    (running endSeq 0 (List.replicate 73 true)).tx = .busy endSeq 0 .display ∧
    ∀ j < 73, (running endSeq 0 (List.replicate 73 true)).answerAt j = true :=
  ⟨literals, rfl, rfl, fun j hj => answerAt_replicate rfl j hj⟩

-- WireFrameStopsAtFirstFailure: the start frame's second LineWrite fails, k = 1, n = 1; and its first, k = 0, n = 0
theorem test_witness_frame_fails : (running startSeq 0 [true, false]).life = .live ∧
    (running startSeq 0 [true, false]).tx = .busy startSeq 0 .display ∧
    startSeq = startOps (running startSeq 0 [true, false]).cfg ∧ startSeq[1]? = some (.write .clock true) ∧
    1 = (startSeq.take 1).countP isWrite ∧ (∀ j < 1, (running startSeq 0 [true, false]).answerAt j = true) ∧
    (running startSeq 0 [true, false]).answerAt 1 = false ∧ (running startSeq 0 [false]).answerAt 0 = false := by
  decide

-- WireFrameStopsAtFirstFailure, WireFrameFrame: the last LineWrite of an LED frame, k = 158, n = 95
theorem test_witness_ledFrame_fails : (running [] 0 (List.replicate 95 true ++ [false])).life = .live ∧
    (∀ j < 95, (running [] 0 (List.replicate 95 true ++ [false])).answerAt j = true) ∧
    (wordOps 0 (ledFrameWord Config.default 31#5 0#8 0#8 255#8))[158]? = some (.write .clock false) ∧
    95 = ((wordOps 0 (ledFrameWord Config.default 31#5 0#8 0#8 255#8)).take 158).countP isWrite ∧
    (running [] 0 (List.replicate 95 true ++ [false])).answerAt 95 = false ∧
    isNext (exec (.ledFrame 31#5 0#8 0#8 255#8) (running [] 0 (List.replicate 95 true ++ [false]))) = true := by decide +kernel

-- StepRunsPresentedCommand: bytes, a record that runs and one that is refused, and SET's highest spelled index and the next
theorem test_witness_command : (hostWill .live [.command [0x04#8]]).tx = .idle ∧
    (hostWill .live [.command [0x04#8]]).inbox = [.command [0x04#8]] ∧
    decode (hostWill .live [.command [0x04#8]]).cfg (.cmd [0x04#8]) = .ok .size := by decide

theorem test_witness_record : (hostWill .live [.record (.set (2 ^ 32) (off .binary32))]).tx = .idle ∧
    (hostWill .live [.record (.set (2 ^ 32) (off .binary32))]).inbox = [.record (.set (2 ^ 32) (off .binary32))] ∧
    (Instr.set (2 ^ 32) (off .binary32)).isRecord .binary32 = true ∧
    (Instr.set (2 ^ 32 - 1) (off .binary32)).isRecord .binary32 = true ∧
    (hostWill .live [.record (.setData true)]).tx = .idle ∧
    (hostWill .live [.record (.setData true)]).inbox = [.record (.setData true)] ∧
    (Instr.setData true).isRecord .binary32 = false ∧ (off .binary32).brightness.fmt = .binary32 := by decide

/-- A block whose next step, at frame grain, is an end frame. -/
def frameState : State := { running endSeq 0 (List.replicate 73 true) with grain := .frame }

-- StepRunsFrameAtPosition, FrameStepIsRunOfLineOperations
theorem test_witness_frame_step : frameState.cfg.SourceLiterals ∧ frameState.grain = .frame ∧
    frameState.tx = .busy endSeq 0 .display ∧
    frameAt frameState.cfg (endSeq.drop 0) = some .endFrame ∧ isNext (step frameState) = true :=
  ⟨literals, by decide +kernel⟩

-- PlacedCodeRunsNext, EncodeInvertsDecode: a command, a frame and a line operation
theorem test_witness_placed : State.reset.cfg.SourceLiterals ∧
    decode State.reset.cfg (.cmd [0x03#8]) = .ok .display ∧
    decode State.reset.cfg (.wire32 0xEF563412#32) = .ok (.ledFrame 15#5 0x56#8 0x34#8 0x12#8) ∧
    decode State.reset.cfg (.lineOp 0b11#2) = .ok (.setClk true) ∧ (∃ bytes, Code.cmd [0x03#8] = .cmd bytes) ∧
    (∀ bytes, Code.lineOp 0b11#2 ≠ .cmd bytes) ∧ (∀ bytes, Code.wire32 0xEF563412#32 ≠ .cmd bytes) :=
  ⟨literals, rfl, by decide, rfl, ⟨_, rfl⟩, nofun, nofun⟩

-- IdleBlockWaits
theorem test_witness_waits : State.reset.tx = .idle ∧ State.reset.inbox = [] := by decide

/-- A construction with binary64. -/
def construction (clkAcquired dataAcquired : Bool) : HostItem :=
  .construct wide clkAcquired dataAcquired (List.replicate 8 (off .binary64))

-- ConstructDriverMakesLiveBlockOrNone: its three clauses
theorem test_witness_construct : (hostWill .absent [construction true true]).tx = .idle ∧
    (hostWill .absent [construction true true]).inbox = [construction true true] ∧
    (hostWill .absent [construction true true]).life = .absent ∧
    (hostWill .absent [construction true false]).life = .absent ∧ ¬ (true = true ∧ false = true) ∧
    (hostWill .live [construction true true]).life ≠ .absent := by decide

-- TeardownReleasesOnce: LIVE, and RELEASED already
theorem test_witness_teardown : (hostWill .live [.teardown]).tx = .idle ∧
    (hostWill .live [.teardown]).inbox = [.teardown] ∧ (hostWill .live [.teardown]).life = .live ∧
    (hostWill .released [.teardown]).life ≠ .live := by decide

/-- The life after an outcome. -/
def lifeAfter : Host.Outcome State Fault Refusal → Option Life
  | .next s => some s.life
  | _ => none

-- LifeChangesOnlyByLifecycleSteps: each of the three changes; OnlyConstructionWritesConfiguration
theorem test_witness_life : lifeAfter (step (hostWill .absent [construction true true])) = some .live ∧
    lifeAfter (step (hostWill .live [.teardown])) = some .released ∧
    lifeAfter (step (hostWill .released [.renew])) = some .absent := by decide

/-- The configuration after an outcome. -/
def cfgAfter : Host.Outcome State Fault Refusal → Option Config
  | .next s => some s.cfg
  | _ => none

theorem test_witness_cfg : cfgAfter (step (hostWill .absent [construction true true])) = some wide ∧
    (hostWill .absent [construction true true]).cfg ≠ wide := by decide

-- OnlyConstructionWritesConfiguration, second clause
theorem test_witness_cfg_literals : (hostWill .absent [construction true true]).cfg.SourceLiterals ∧
    (∀ cfg a b initBuf, .construct cfg a b initBuf ∈ (hostWill .absent [construction true true]).inbox →
      cfg.SourceLiterals) ∧ isNext (step (hostWill .absent [construction true true])) = true := by
  refine ⟨literals, ?_, by decide⟩
  intro cfg a b initBuf h
  simp only [hostWill, construction, List.mem_singleton, HostItem.construct.injEq] at h
  rw [h.1]
  exact literals_wide

/-- A block that has just accepted DISPLAY. -/
def justBusy : State := { State.reset.startDisplay .display with answers := [true, false] }

-- StepKeepsInvariant, NoFaultUnderInvariant, EveryDisplayEnds
theorem test_witness_inv : Inv justBusy := by
  refine ⟨rfl, ⟨rfl, ?_⟩, ?_, rfl, Nat.zero_le _, ⟨encodeBuffer Config.default State.reset.buf, rfl, rfl⟩, ?_, ?_⟩
  · intro p hp
    have h : p = off .binary32 := by simpa [justBusy, State.reset, State.constructed, Config.default] using hp
    rw [h]
    rfl
  · intro item hi
    simp [justBusy, State.reset, State.constructed] at hi
  · intro _
    decide
  · intro h
    cases h

theorem test_witness_inv_step : isNext (step justBusy) = true ∧ justBusy.busy = true := by decide

-- BusyStepKeepsBuffer, PositionMovesByOneOrLeaves
theorem test_witness_busy_step : (running startSeq 0 [true]).tx ≠ .idle ∧
    (running startSeq 0 [true]).grain = .op ∧ isNext (step (running startSeq 0 [true])) = true ∧
    isNext (step (running startSeq 129 [])) = true := by decide +kernel

-- IdleStepDrivesNoLine, ResponseStoredIsResponseDelivered: a command, a failed construction, nothing presented
theorem test_witness_idle_step : (hostWill .live [.command [0x04#8]]).tx = .idle ∧
    isNext (step (hostWill .live [.command [0x04#8]])) = true ∧
    isNext (step (hostWill .absent [construction false true])) = true ∧ isNext (step State.reset) = true := by decide

/-- A block with a display of the sample words, and answers ok for all of it. -/
def fullDisplay : State := running sampleSeq 0 (List.replicate 906 true)

-- UndisturbedDisplayCompletes, CounterFormAttemptsSequence (second clause; with a failing write, test_witness_abort)
theorem test_witness_full_display : fullDisplay.cfg.SourceLiterals ∧ fullDisplay.life = .live ∧
    fullDisplay.grain = .op ∧ sampleWords.length = 8 ∧
    fullDisplay.tx = .busy (displayOps fullDisplay.cfg sampleWords) 0 .display ∧
    ∀ j < 906, fullDisplay.answerAt j = true :=
  ⟨literals, rfl, rfl, rfl, rfl, fun j hj => answerAt_replicate rfl j hj⟩

/-- A display of the sample words whose operation 170 fails (95_test_vectors P3). -/
def failingDisplay : State := running sampleSeq 0 (List.replicate 90 true ++ [false])

-- AbortIsPrecise: op = 170, n = 90; the 91st attempt is the last (V-T14)
theorem test_witness_abort : failingDisplay.cfg.SourceLiterals ∧ failingDisplay.life = .live ∧
    failingDisplay.grain = .op ∧
    failingDisplay.tx = .busy sampleSeq 0 .display ∧
    sampleSeq[170]? = some (.write .clock true) ∧
    90 = (sampleSeq.take 170).countP isWrite ∧ (∀ j < 90, failingDisplay.answerAt j = true) ∧
    failingDisplay.answerAt 90 = false := ⟨literals, by decide +kernel⟩

/-- A block ready for a display whose 906 LineWrites are answered ok; and the same block after such a display, with the
next DISPLAY presented (95_test_vectors V-T9). -/
def firstDisplay : State := { withAnswers (List.replicate 906 true) with inbox := [.command [0x03#8]] }

def secondDisplay : State :=
  { withAnswers (List.replicate 906 true) with
    clk := .l0, dat := .l0, resp := some .done, attempts := 906, log := sampleSeq.map okToken, delivered := [.done] }

-- DisplayIgnoresHistory, for the first step of each; then with empty inboxes
theorem test_witness_history : firstDisplay.life = .live ∧ secondDisplay.life = .live ∧
    firstDisplay.grain = .op ∧ secondDisplay.grain = .op ∧
    encodeBuffer firstDisplay.cfg firstDisplay.buf = encodeBuffer secondDisplay.cfg secondDisplay.buf ∧
    firstDisplay.cfg.delay = secondDisplay.cfg.delay ∧
    firstDisplay.cfg.startPulses = secondDisplay.cfg.startPulses ∧
    firstDisplay.cfg.endPulses = secondDisplay.cfg.endPulses ∧
    (∀ j < (displayOps firstDisplay.cfg (encodeBuffer firstDisplay.cfg firstDisplay.buf)).countP isWrite,
      firstDisplay.answerAt j = secondDisplay.answerAt j) ∧
    (∀ m < 1, ∃ u, runFor m (firstDisplay.startDisplay .display) = .next u ∧ u.tx ≠ .idle) ∧
    firstDisplay.attempts ≠ secondDisplay.attempts ∧ (withAnswers [true]).inbox = [] ∧ secondDisplay.inbox = [] := by
  have hc : (displayOps firstDisplay.cfg (encodeBuffer firstDisplay.cfg firstDisplay.buf)).countP isWrite = 906 := by
    decide +kernel
  refine ⟨rfl, rfl, rfl, rfl, rfl, rfl, rfl, rfl, ?_, ?_, by decide, rfl, rfl⟩
  · intro j hj
    rw [hc] at hj
    rw [answerAt_replicate (s := firstDisplay) rfl j hj, answerAt_replicate (s := secondDisplay) rfl j hj]
  · intro m hm
    obtain rfl : m = 0 := by omega
    exact ⟨_, rfl, nofun⟩

-- DecodeInvertsEncode: SET at its highest spelled index, an LED frame, and an index that cannot be spelled; SampleWordsDecode
theorem test_witness_wf : wide.SourceLiterals ∧ Config.default.SourceLiterals ∧
    (Instr.set (2 ^ 32 - 1) (pix 1#8 2#8 3#8 0#32)).wf Config.default = true ∧
    (Instr.ledFrame 31#5 1#8 2#8 3#8).wf wide = true ∧ Config.default.bfmt = .binary32 ∧
    (pix 1#8 2#8 3#8 0#32).brightness.fmt = Config.default.bfmt ∧ 2 ^ 32 ≤ 2 ^ 32 := ⟨literals_wide, literals, by decide⟩

-- ProductRoundsToNearestEven: the largest significand of binary32
theorem test_witness_product : 2 ^ 24 - 1 < 2 ^ 24 := by decide

-- ValidBrightnessLevelIsTruncation: 0.0, -0.0, the smallest subnormal, 1.0
theorem test_witness_valid : Config.default.SourceLiterals ∧ inUnitRange (.b32 0#32) = true ∧
    inUnitRange (.b32 0x80000000#32) = true ∧
    inUnitRange (.b32 1#32) = true ∧ inUnitRange (.b32 0x3F800000#32) = true ∧
    unpack (.b32 0x3F800000#32) = .finite false (2 ^ 23) (-23) := ⟨literals, by decide⟩

-- LevelWrapsAboveValidRange: the first binary32 above 1.0, and 8.25
theorem test_witness_wraps : Config.default.SourceLiterals ∧
    unpack (.b32 0x3F800001#32) = .finite false (2 ^ 23 + 1) (-23) ∧
    inUnitRange (.b32 0x3F800001#32) = false ∧ scaledLevel 31 .binary32 (2 ^ 23 + 1) (-23) = 31 ∧
    unpack (.b32 0x41040000#32) = .finite false 8650752 (-20) ∧ inUnitRange (.b32 0x41040000#32) = false ∧
    scaledLevel 31 .binary32 8650752 (-20) = 255 := ⟨literals, by decide⟩

-- UnsettledBrightnessGetsOpenLevel: each of its four cases (V-E16 to V-E18)
theorem test_witness_open : Config.default.SourceLiterals ∧ unpack (.b32 0x7FC00000#32) = .nan ∧
    unpack (.b32 0xFF800000#32) = .infinite true ∧
    unpack (.b32 0xBF000000#32) = .finite true (2 ^ 23) (-24) ∧
    unpack (.b32 0x41100000#32) = .finite false 9437184 (-20) ∧
    256 ≤ scaledLevel 31 .binary32 9437184 (-20) := ⟨literals, by decide⟩

-- EncoderBuildsLedFrameWord, SequencePositions, SequenceCounts, DataAtPulsesFollowsCellMap, CounterFormAttemptsSequence, RisingEdgesOfADisplay, and
-- DataChangesOnlyWithClockLow at its first pixel bit and at the last clock write
theorem test_witness_eight_words : Config.default.SourceLiterals ∧ sampleWords.length = 8 ∧
    sampleSeq[129]? = some (.write .data true) ∧
    sampleSeq[1552]? = some (.write .clock false) := ⟨literals, by decide +kernel⟩

end Sys2Proof.Tests
end

section
/-! What the host's next item makes of the step of an IDLE block (00_scope R19, 10_state R28). -/

namespace Sys2Proof.Machine

theorem hostMove_of_command {s : State} {bytes : List Byte} {rest : List HostItem} {i : Instr}
    (hin : s.inbox = .command bytes :: rest) (hd : decode s.cfg (.cmd bytes) = .ok i) :
    hostMove s = .run i (s.setInbox rest) := by
  simp only [hostMove, hin, hd]

theorem hostMove_of_record {s : State} {rest : List HostItem} {i : Instr} (hin : s.inbox = .record i :: rest) :
    hostMove s = if i.isRecord s.cfg.bfmt then .run i (s.setInbox rest) else .other (.refused (.badRecord i)) := by
  simp only [hostMove, hin]

theorem step_command {s : State} {bytes : List Byte} {rest : List HostItem} {i : Instr} (ht : s.tx = .idle)
    (hin : s.inbox = .command bytes :: rest) (hd : decode s.cfg (.cmd bytes) = .ok i) :
    step s = exec i (s.setInbox rest) :=
  step_of_run ((nextMove_idle ht).trans (hostMove_of_command hin hd))

theorem step_record {s : State} {rest : List HostItem} {i : Instr} (ht : s.tx = .idle)
    (hin : s.inbox = .record i :: rest) (hr : i.isRecord s.cfg.bfmt = true) : step s = exec i (s.setInbox rest) :=
  step_of_run (by rw [nextMove_idle ht, hostMove_of_record hin, if_pos hr])

theorem step_badRecord {s : State} {rest : List HostItem} {i : Instr} (ht : s.tx = .idle)
    (hin : s.inbox = .record i :: rest) (hr : i.isRecord s.cfg.bfmt = false) : step s = .refused (.badRecord i) :=
  step_of_other (by rw [nextMove_idle ht, hostMove_of_record hin, if_neg (by simp [hr])])

/-- A SET is a command of the abstract record when its pixel is of BFMT, whatever its index (30_encoding R78, R80). -/
theorem isRecord_set (fmt : BFmt) (index : Nat) (pixel : Pixel) :
    (Instr.set index pixel).isRecord fmt = true ↔ pixel.brightness.fmt = fmt := by
  simp [Instr.isRecord, Pixel.wf]

/-- Settles O26: an IDLE block's move is the host's, and the host's next item, bytes or record, says which. -/
theorem stepRunsPresentedCommand : Obligations.StepRunsPresentedCommand := by
  unfold Obligations.StepRunsPresentedCommand
  refine ⟨fun _ _ _ _ => step_command, fun s rest i ht hin => ⟨?_, ?_⟩, ?_⟩
  · exact step_record ht hin
  · exact step_badRecord ht hin
  · exact fun fmt index pixel => (isRecord_set fmt index pixel).mpr

end Sys2Proof.Machine
end

section
/-! The rounding of the scaled brightness (00_scope R18, 40_pixel_model R102): `excessBits` finds the one shift that leaves
the format's precision, and `roundNearestEven` picks the nearer of the two multiples of 2^k around `n`. -/

namespace Sys2Proof.Machine

/-! ### How many bits go -/

/-- Enough fuel brings what is left below 2^p. -/
theorem div_excessBits_lt (p fuel n : Nat) (h : n < 2 ^ (p + fuel)) : n / 2 ^ excessBits p fuel n < 2 ^ p := by
  induction fuel generalizing n with
  | zero => simpa [excessBits] using h
  | succ fuel ih =>
    unfold excessBits
    split
    · simpa
    · rw [Nat.pow_succ', ← Nat.div_div_eq_div_mul]
      exact ih (n / 2) (by rw [← Nat.add_assoc, Nat.pow_succ] at h; omega)

/-- No more bits go than must: with one fewer gone, what is left has more than `p` bits. -/
theorem le_div_of_excessBits_eq_succ {p fuel n k : Nat} (h : excessBits p fuel n = k + 1) : 2 ^ p ≤ n / 2 ^ k := by
  induction fuel generalizing n k with
  | zero => simp [excessBits] at h
  | succ fuel ih =>
    unfold excessBits at h
    split at h
    · omega
    · cases k with
      | zero => simpa using ‹¬n < 2 ^ p›
      | succ k =>
        rw [Nat.pow_succ', ← Nat.div_div_eq_div_mul]
        exact ih (by omega)

/-- A scale factor is below two to itself, so a scaled significand is within the fuel that `roundedProduct` gives. -/
theorem scaled_lt {scale p m : Nat} (h : m < 2 ^ p) : m * scale < 2 ^ (p + scale) := by
  rw [Nat.pow_add]
  exact Nat.mul_lt_mul'' h Nat.lt_two_pow_self

/-! ### Which neighbour is taken -/

/-- The result is the multiple below when the remainder is at most half, the one above when it is at least half, and the
even one of the two when it is exactly half. -/
theorem roundNearestEven_cases (n k : Nat) :
    (roundNearestEven n k = n / 2 ^ k ∧ 2 * (n % 2 ^ k) ≤ 2 ^ k ∨
      roundNearestEven n k = n / 2 ^ k + 1 ∧ 2 ^ k ≤ 2 * (n % 2 ^ k)) ∧
    (2 * (n % 2 ^ k) = 2 ^ k → roundNearestEven n k % 2 = 0) := by
  unfold roundNearestEven
  dsimp only
  split
  · omega
  · split <;> omega

theorem roundNearestEven_bounds (n k : Nat) :
    n / 2 ^ k ≤ roundNearestEven n k ∧ roundNearestEven n k ≤ n / 2 ^ k + 1 := by
  obtain ⟨⟨h, -⟩ | ⟨h, -⟩, -⟩ := roundNearestEven_cases n k <;> omega

/-- The result is within half a unit of `n`, and even where it is exactly half a unit away. -/
theorem roundNearestEven_nearest (n k : Nat) :
    2 * (roundNearestEven n k * 2 ^ k) ≤ 2 * n + 2 ^ k ∧ 2 * n ≤ 2 * (roundNearestEven n k * 2 ^ k) + 2 ^ k ∧
    ((2 * (roundNearestEven n k * 2 ^ k) = 2 * n + 2 ^ k ∨ 2 * n = 2 * (roundNearestEven n k * 2 ^ k) + 2 ^ k) →
      roundNearestEven n k % 2 = 0) := by
  have hn : n / 2 ^ k * 2 ^ k + n % 2 ^ k = n := Nat.div_add_mod' n (2 ^ k)
  have hpos : 0 < 2 ^ k := Nat.two_pow_pos k
  obtain ⟨hq, heven⟩ := roundNearestEven_cases n k
  obtain ⟨hq, hr⟩ | ⟨hq, hr⟩ := hq
  · have hmul : roundNearestEven n k * 2 ^ k = n / 2 ^ k * 2 ^ k := by rw [hq]
    exact ⟨by omega, by omega, fun htie => heven (by omega)⟩
  · have hmul : roundNearestEven n k * 2 ^ k = n / 2 ^ k * 2 ^ k + 2 ^ k := by rw [hq, Nat.succ_mul]
    exact ⟨by omega, by omega, fun htie => heven (by omega)⟩

/-! ### The rounded product -/

theorem roundedProduct_le {scale p m : Nat} (h : m < 2 ^ p) : (roundedProduct scale p m).1 ≤ 2 ^ p := by
  have hlt := div_excessBits_lt p scale (m * scale) (scaled_lt h)
  exact (roundNearestEven_bounds _ _).2.trans hlt

/-- Where bits go, the result has the full precision. -/
theorem roundedProduct_full {scale p m : Nat} (h : m < 2 ^ p) (hk : (roundedProduct scale p m).2 ≠ 0) :
    2 ^ p ≤ 2 * (roundedProduct scale p m).1 := by
  obtain ⟨k, hk⟩ := Nat.exists_eq_add_one_of_ne_zero hk
  have hle : 2 ^ p ≤ m * scale / 2 ^ k := le_div_of_excessBits_eq_succ hk
  have hq : m * scale / 2 ^ (k + 1) ≤ (roundedProduct scale p m).1 := by
    rw [← hk]
    exact (roundNearestEven_bounds _ _).1
  rw [Nat.pow_succ, ← Nat.div_div_eq_div_mul] at hq
  cases p with
  | zero =>
    obtain rfl : m = 0 := by omega
    simp at hle
  | succ p =>
    rw [Nat.pow_succ] at hle ⊢
    omega

/-- Settles O50: the result is the rounding to nearest of the product at the shift `excessBits`, which leaves at most and, if
any bit goes, exactly the precision. -/
theorem productRoundsToNearestEven : Obligations.ProductRoundsToNearestEven := by
  unfold Obligations.ProductRoundsToNearestEven
  intro scale p m hm
  obtain ⟨hup, hlow, htie⟩ := roundNearestEven_nearest (m * scale) (roundedProduct scale p m).2
  exact ⟨roundedProduct_le hm, hup, hlow, htie, roundedProduct_full hm⟩

end Sys2Proof.Machine
end

section
/-! The clock line in a display sequence (42_transmitter R178), and the latches as the operations done so far leave them. The
clock is low at every DATA write: that is why no abort leaves its latch at L1 (70_reset_and_hazards R234). -/

namespace Sys2Proof.Machine

/-! ### Where the clock is low -/

/-- The clock is not left high by `ops`, nor is it high at any DATA write among them. -/
structure ClockRestsLow (ops : List LineOp) : Prop where
  last : lastWrite .clock ops ≠ some true
  data : ∀ k v, ops[k]? = some (.write .data v) → lastWrite .clock (ops.take k) ≠ some true

theorem lastWrite_append_ne {line : Line} {a b : List LineOp} {v : Bool} (ha : lastWrite line a ≠ some v)
    (hb : lastWrite line b ≠ some v) : lastWrite line (a ++ b) ≠ some v := by
  rw [lastWrite_append, ne_eq, Option.or_eq_some_iff]
  tauto

theorem ClockRestsLow.nil : ClockRestsLow [] := ⟨by simp, by simp⟩

theorem ClockRestsLow.append {a b : List LineOp} (ha : ClockRestsLow a) (hb : ClockRestsLow b) : ClockRestsLow (a ++ b) := by
  refine ⟨lastWrite_append_ne ha.last hb.last, fun k v hk => ?_⟩
  rw [List.take_append]
  obtain hlt | hle := Nat.lt_or_ge k a.length
  · rw [List.getElem?_append_left hlt] at hk
    simpa [Nat.sub_eq_zero_of_le hlt.le] using ha.data k v hk
  · rw [List.getElem?_append_right hle] at hk
    rw [List.take_of_length_le hle]
    exact lastWrite_append_ne ha.last (hb.data _ v hk)

theorem ClockRestsLow.flatMap {α : Type} {f : α → List LineOp} (h : ∀ x, ClockRestsLow (f x)) (xs : List α) :
    ClockRestsLow (xs.flatMap f) := by
  induction xs with
  | nil => exact .nil
  | cons x xs ih => exact (h x).append ih

theorem dataWrite_clockRestsLow (v : Bool) : ClockRestsLow [.write .data v] := by
  refine ⟨by simp [lastWrite], fun k w hk => ?_⟩
  obtain ⟨hlt, -⟩ := List.getElem?_eq_some_iff.mp hk
  obtain rfl : k = 0 := by simpa using hlt
  simp

theorem pulseOps_clockRestsLow (d : Nat) : ClockRestsLow (pulseOps d) := by
  refine ⟨by simp [pulseOps, lastWrite], fun k v hk => ?_⟩
  have hmem := List.mem_of_getElem? hk
  simp [pulseOps] at hmem

theorem pulsesOps_clockRestsLow (d n : Nat) : ClockRestsLow (pulsesOps d n) := by
  induction n with
  | zero => exact .nil
  | succ n ih => exact (pulseOps_clockRestsLow d).append ih

theorem wordOps_clockRestsLow (d : Nat) (w : WireWord) : ClockRestsLow (wordOps d w) := by
  have hbit (v : Bool) : ClockRestsLow (bitOps d v) := (dataWrite_clockRestsLow v).append (pulseOps_clockRestsLow d)
  have hbyte (b : Byte) : ClockRestsLow (byteOps d b) := .flatMap hbit _
  exact (((hbyte _).append (hbyte _)).append (hbyte _)).append (hbyte _)

theorem displayOps_clockRestsLow (cfg : Config) (ws : List WireWord) : ClockRestsLow (displayOps cfg ws) := by
  have hframe (n : Nat) : ClockRestsLow (.write .data false :: pulsesOps cfg.delay n) :=
    (dataWrite_clockRestsLow false).append (pulsesOps_clockRestsLow _ n)
  exact ((hframe _).append (.flatMap (wordOps_clockRestsLow _) ws)).append (hframe _)

/-! ### A latch and the operations done so far -/

theorem latchOk_wait {line : Line} {done : List LineOp} {level : Level} (d : Nat) (h : latchOk line done level) :
    latchOk line (done ++ [.wait d]) level := by
  simpa [latchOk, lastWrite_append, lastWrite] using h

theorem latchOk_write {line : Line} {done : List LineOp} {level : Level} (l : Line) (v : Bool)
    (h : latchOk line done level) :
    latchOk line (done ++ [.write l v]) (if l = line then levelOf v else level) := by
  unfold latchOk at *
  rw [lastWrite_append]
  by_cases hl : l = line
  · simp [lastWrite, hl]
  · simpa [lastWrite, hl] using h

/-- A clock that was not last driven high is not latched high. -/
theorem latchOk_clock_ne {done : List LineOp} {level : Level} (h : latchOk .clock done level)
    (hd : lastWrite .clock done ≠ some true) : level ≠ .l1 := by
  unfold latchOk at h
  split at h
  · rename_i v hv
    obtain rfl : v = false := by simpa [hv] using hd
    simp [h, levelOf]
  · exact h rfl

end Sys2Proof.Machine
end

section
/-! What an instruction and a step can do to each part of the state, said once, and the statements about single parts: life,
the configuration, the response, the position and the lines (10_state R25 to R31). -/

namespace Sys2Proof.Machine

/-! ### What a line operation does to each part of the state -/

@[simp] theorem State.performOp_write_clk (s : State) (line : Line) (v : Bool) :
    (s.performOp (.write line v)).clk =
      if line = .clock then (if s.nextAnswer then levelOf v else .unknown) else s.clk := by
  cases h : s.nextAnswer with
  | true => simp [State.performOp_write_ok _ _ h, h]
  | false => simp [State.performOp_write_fail _ _ h, h]

@[simp] theorem State.performOp_write_dat (s : State) (line : Line) (v : Bool) :
    (s.performOp (.write line v)).dat =
      if line = .data then (if s.nextAnswer then levelOf v else .unknown) else s.dat := by
  cases h : s.nextAnswer with
  | true => simp [State.performOp_write_ok _ _ h, h]
  | false => simp [State.performOp_write_fail _ _ h, h]

/-- With a display running a line operation moves pc on by one, or fails and leaves the sequence (10_state R27). -/
theorem State.performOp_tx {s : State} {seq : List LineOp} {pc : Nat} {origin : Origin} (op : LineOp)
    (ht : s.tx = .busy seq pc origin) :
    (s.performOp op).tx = if s.opSucceeds op then .busy seq (pc + 1) origin else .idle := by
  cases op with
  | wait d => simp [State.performOp_wait, State.opSucceeds, ht]
  | write line v =>
    cases h : s.nextAnswer with
    | true => simp [State.performOp_write_ok _ _ h, State.opSucceeds, h, ht]
    | false => simp [State.performOp_write_fail _ _ h, State.opSucceeds, h]

/-- The response is left as it is, or one response is delivered and stored (10_state R29). -/
def AnswersAtMostOne (s t : State) : Prop :=
  (t.resp = s.resp ∧ t.delivered = s.delivered) ∨ ∃ r, t.resp = some r ∧ t.delivered = s.delivered ++ [r]

theorem State.performOp_resp_of_succeeds {s : State} {op : LineOp} (h : s.opSucceeds op = true) :
    (s.performOp op).resp = s.resp ∧ (s.performOp op).delivered = s.delivered := by
  cases op with
  | wait d => simp [State.performOp_wait]
  | write line v => simp [State.performOp_write_ok line v h]

/-- Line operations end at the first that fails, so at most one of them answers. -/
theorem State.performOps_answersAtMostOne (ops : List LineOp) (s : State) : AnswersAtMostOne s (s.performOps ops) := by
  induction ops generalizing s with
  | nil => exact .inl ⟨rfl, rfl⟩
  | cons op rest ih =>
    cases h : s.opSucceeds op with
    | true =>
      obtain ⟨hr, hd⟩ := State.performOp_resp_of_succeeds h
      have hrest := ih (s.performOp op)
      unfold AnswersAtMostOne at hrest
      rwa [hr, hd, ← State.performOps_cons_ok rest h] at hrest
    | false =>
      rw [State.performOps_cons_fail rest h]
      exact s.performOp_resp op

theorem State.performOps_singleton (s : State) (op : LineOp) : s.performOps [op] = s.performOp op := by
  unfold State.performOps
  split <;> rfl

/-! ### What an instruction can do -/

/-- A line operation or a wire frame needs a LIVE block and performs a list of line operations. -/
theorem exec_line_next {i : Instr} {s t : State} (hc : i.isCommand = false) (h : exec i s = .next t) :
    s.life = .live ∧ ∃ ops, t = s.performOps ops := by
  have hmany {ops : List LineOp} (h : whenLive s (s.performOps ops) = .next t) :
      s.life = .live ∧ ∃ ops, t = s.performOps ops :=
    (whenLive_next h).imp_right fun h => ⟨ops, h⟩
  have hone {op : LineOp} (h : whenLive s (s.performOp op) = .next t) : s.life = .live ∧ ∃ ops, t = s.performOps ops :=
    hmany (ops := [op]) (by rwa [s.performOps_singleton])
  cases i with
  | setData v => exact hone h
  | setClk v => exact hone h
  | wait d => exact hone h
  | startFrame => exact hmany h
  | endFrame => exact hmany h
  | ledFrame level blue green red => exact hmany h
  | _ => cases hc

theorem exec_answersAtMostOne {i : Instr} {s t : State} (h : exec i s = .next t) : AnswersAtMostOne s t := by
  cases hc : i.isCommand with
  | true =>
    obtain ⟨-, -, -, -, -, -, -, -, -, -, hr⟩ := exec_command_frame hc h
    exact hr
  | false =>
    obtain ⟨-, ops, rfl⟩ := exec_line_next hc h
    exact s.performOps_answersAtMostOne ops

/-- The only commands that write the buffer are SET and CLEAR_ALL (41_pixel_buffer R131, R133). -/
theorem exec_command_buf {i : Instr} {s t : State} (hc : i.isCommand = true) (h : exec i s = .next t) :
    t.buf = s.buf ∨ t.buf = allOff s.cfg ∨
      ∃ index pixel, i = .set index pixel ∧ t.buf = writeSlot s.cfg s.buf index pixel := by
  cases i with
  | set index pixel =>
    obtain ⟨-, ⟨-, rfl⟩ | ⟨-, rfl⟩⟩ := whenReady_next h
    · exact .inr (.inr ⟨index, pixel, rfl, rfl⟩)
    · exact .inl rfl
  | clearAll =>
    obtain ⟨-, ⟨-, rfl⟩ | ⟨-, rfl⟩⟩ := whenReady_next h
    · exact .inr (.inl rfl)
    · exact .inl rfl
  | display | size | snapshot | encode pixel | reservedCmd opcode =>
    obtain ⟨-, ⟨-, rfl⟩ | ⟨-, rfl⟩⟩ := whenReady_next h <;> exact .inl rfl
  | _ => cases hc

/-- A command of an IDLE block leaves it IDLE, or starts a display of the buffer as the command leaves it
(42_transmitter R169). -/
theorem exec_command_tx {i : Instr} {s t : State} (hc : i.isCommand = true) (ht : s.tx = .idle)
    (h : exec i s = .next t) :
    t.tx = .idle ∨ ∃ origin, t.tx = .busy (displayOps t.cfg (encodeBuffer t.cfg t.buf)) 0 origin := by
  cases i with
  | clearAll | display =>
    obtain ⟨-, ⟨-, rfl⟩ | ⟨hb, -⟩⟩ := whenReady_next h
    · exact .inr ⟨_, rfl⟩
    · exact absurd ht hb
  | set index pixel | size | snapshot | encode pixel | reservedCmd opcode =>
    obtain ⟨-, ⟨-, rfl⟩ | ⟨hb, -⟩⟩ := whenReady_next h
    · exact .inl ht
    · exact absurd ht hb
  | _ => cases hc

/-! ### What a step of a block that runs a display can do -/

theorem instrOfOp_isCommand (op : LineOp) : (instrOfOp op).isCommand = false := by
  cases op with
  | write line v => cases line <;> rfl
  | wait d => rfl

theorem decodeWire32_isCommand {cfg : Config} {w : Word} {i : Instr} (h : decodeWire32 cfg w = .ok i) :
    i.isCommand = false := by
  unfold decodeWire32 at h
  dsimp only at h
  split at h <;> cases h
  rfl

theorem frameAt_isCommand {cfg : Config} {ops : List LineOp} {i : Instr} (h : frameAt cfg ops = some i) :
    i.isCommand = false := by
  unfold frameAt at h
  split at h
  · cases h; rfl
  split at h
  · cases h; rfl
  split at h
  · cases hd : decodeWire32 cfg (cellWord ops) with
    | error why => simp [hd, Except.toOption] at h
    | ok j =>
      obtain rfl : j = i := by simpa [hd, Except.toOption] using h
      exact decodeWire32_isCommand hd
  · cases h

/-- What the transmitter runs is never a command of the port. -/
theorem fetchTx_isCommand (grain : Grain) (cfg : Config) (op : LineOp) (rest : List LineOp) :
    (fetchTx grain cfg op rest).isCommand = false := by
  cases grain with
  | op => exact instrOfOp_isCommand op
  | frame =>
    cases h : frameAt cfg (op :: rest) with
    | none => simp [fetchTx, h, instrOfOp_isCommand]
    | some i => simp [fetchTx, h, frameAt_isCommand h]

theorem step_busy_sameBlock {s t : State} {seq : List LineOp} {pc : Nat} {origin : Origin}
    (ht : s.tx = .busy seq pc origin) (h : step s = .next t) : SameBlock s t := by
  obtain ⟨op, rest, -, he⟩ | ⟨-, rfl⟩ := step_busy_cases ht h
  · exact exec_sameBlock (fetchTx_isCommand ..) he
  · exact ⟨rfl, rfl, rfl, rfl, rfl⟩

theorem step_busy_answersAtMostOne {s t : State} {seq : List LineOp} {pc : Nat} {origin : Origin}
    (ht : s.tx = .busy seq pc origin) (h : step s = .next t) : AnswersAtMostOne s t := by
  obtain ⟨op, rest, -, he⟩ | ⟨-, rfl⟩ := step_busy_cases ht h
  · exact exec_answersAtMostOne he
  · exact .inr ⟨.done, rfl, rfl⟩

/-- At the spec's grain a step performs the operation at pc, or completes the display at the end of the sequence. -/
theorem step_busy_op_cases {s t : State} {seq : List LineOp} {pc : Nat} {origin : Origin} (hg : s.grain = .op)
    (ht : s.tx = .busy seq pc origin) (h : step s = .next t) :
    (∃ op, seq[pc]? = some op ∧ t = s.performOp op) ∨ (pc = seq.length ∧ t = s.completeDisplay) := by
  refine (step_busy_cases ht h).imp_left fun ⟨op, rest, hd, he⟩ => ⟨op, ?_, ?_⟩
  · rw [← List.head?_drop, hd, List.head?_cons]
  · rw [hg] at he
    obtain ⟨hl, -⟩ := exec_line_next (instrOfOp_isCommand op) he
    rw [fetchTx, exec_instrOfOp op hl] at he
    cases he
    rfl

/-! ### What any step can do -/

/-- The host's items only get fewer, from the first on (00_scope R19). -/
theorem step_inbox_suffix {s t : State} (h : step s = .next t) : t.inbox <:+ s.inbox := by
  cases ht : s.tx with
  | busy seq pc origin => rw [(step_busy_sameBlock ht h).inbox]
  | idle =>
    obtain ⟨-, rfl⟩ | ⟨item, rest, i, hin, -, hc, he⟩ | ⟨cfg, a, b, buf, rest, hin, -, ⟨-, -, rfl⟩ | rfl⟩ |
      ⟨rest, hin, -, rfl⟩ | ⟨rest, hin, -, rfl⟩ := step_idle_cases ht h
    · exact List.suffix_rfl
    · obtain ⟨-, -, -, -, -, hinbox, -⟩ := exec_command_frame hc he
      rw [hinbox, hin]
      exact List.suffix_cons item rest
    all_goals rw [hin]; exact List.suffix_cons _ rest

theorem step_grain {s t : State} (h : step s = .next t) : t.grain = s.grain := by
  cases ht : s.tx with
  | busy seq pc origin => exact (step_busy_sameBlock ht h).grain
  | idle =>
    obtain ⟨-, rfl⟩ | ⟨item, rest, i, -, -, hc, he⟩ | ⟨cfg, a, b, buf, rest, -, -, ⟨-, -, rfl⟩ | rfl⟩ |
      ⟨rest, -, -, rfl⟩ | ⟨rest, -, -, rfl⟩ := step_idle_cases ht h
    · rfl
    · obtain ⟨-, -, -, -, -, -, -, -, -, hgrain, -⟩ := exec_command_frame hc he
      exact hgrain
    all_goals rfl

/-- Settles O33: a running display keeps the block and a command keeps life, so only the three lifecycle items are left. -/
theorem lifeChangesOnlyByLifecycleSteps : Obligations.LifeChangesOnlyByLifecycleSteps := by
  unfold Obligations.LifeChangesOnlyByLifecycleSteps
  intro s t h hne
  cases ht : s.tx with
  | busy seq pc origin => exact absurd (step_busy_sameBlock ht h).life hne
  | idle =>
    obtain ⟨-, rfl⟩ | ⟨item, rest, i, -, -, hc, he⟩ | ⟨cfg, a, b, buf, rest, hin, hl, ⟨rfl, rfl, rfl⟩ | rfl⟩ |
      ⟨rest, hin, hl, rfl⟩ | ⟨rest, hin, hl, rfl⟩ := step_idle_cases ht h
    · exact absurd rfl hne
    · obtain ⟨-, hlife, -⟩ := exec_command_frame hc he
      exact absurd hlife hne
    · exact .inl ⟨hl, rfl, cfg, buf, by simp [hin]⟩
    · exact absurd rfl hne
    · exact .inr (.inl ⟨hl, rfl, by simp [hin]⟩)
    · exact .inr (.inr ⟨hl, rfl, by simp [hin]⟩)

/-- The configuration changes only by a construction with both lines acquired (10_state R31). -/
theorem step_cfg_of_ne {s t : State} (h : step s = .next t) (hne : t.cfg ≠ s.cfg) :
    s.tx = .idle ∧ s.life = .absent ∧ ∃ initBuf, s.inbox.head? = some (.construct t.cfg true true initBuf) := by
  cases ht : s.tx with
  | busy seq pc origin => exact absurd (step_busy_sameBlock ht h).cfg hne
  | idle =>
    obtain ⟨-, rfl⟩ | ⟨item, rest, i, -, -, hc, he⟩ | ⟨cfg, a, b, buf, rest, hin, hl, ⟨rfl, rfl, rfl⟩ | rfl⟩ |
      ⟨rest, -, -, rfl⟩ | ⟨rest, -, -, rfl⟩ := step_idle_cases ht h
    · exact absurd rfl hne
    · obtain ⟨-, -, -, -, hcfg, -⟩ := exec_command_frame hc he
      exact absurd hcfg hne
    · exact ⟨rfl, hl, buf, by simp [hin]⟩
    all_goals exact absurd rfl hne

/-- Settles O40: the new configuration, where there is one, is that of a construction the host asked for. -/
theorem onlyConstructionWritesConfiguration : Obligations.OnlyConstructionWritesConfiguration := by
  unfold Obligations.OnlyConstructionWritesConfiguration
  refine ⟨fun s t => step_cfg_of_ne, fun s t hlit hitems h => ⟨?_, fun cfg a b buf hmem => ?_⟩⟩
  · by_cases hcfg : t.cfg = s.cfg
    · rwa [hcfg]
    · obtain ⟨-, -, buf, hhead⟩ := step_cfg_of_ne h hcfg
      exact hitems _ _ _ _ (List.mem_of_head? hhead)
  · exact hitems cfg a b buf ((step_inbox_suffix h).subset hmem)

/-- Settles O41: every instruction and the completion answer at most once, and of the lifecycle steps only a construction
touches the response or what is delivered. -/
theorem responseStoredIsResponseDelivered : Obligations.ResponseStoredIsResponseDelivered := by
  unfold Obligations.ResponseStoredIsResponseDelivered
  intro s t h
  rw [← or_assoc]
  cases ht : s.tx with
  | busy seq pc origin => exact .inl (step_busy_answersAtMostOne ht h)
  | idle =>
    obtain ⟨-, rfl⟩ | ⟨item, rest, i, -, -, -, he⟩ | ⟨cfg, a, b, buf, rest, -, hl, ⟨-, -, rfl⟩ | rfl⟩ |
      ⟨rest, -, -, rfl⟩ | ⟨rest, -, -, rfl⟩ := step_idle_cases ht h
    · exact .inl (.inl ⟨rfl, rfl⟩)
    · exact .inl (exec_answersAtMostOne (s := s.setInbox rest) he)
    · exact .inr ⟨hl, .inr ⟨rfl, rfl⟩⟩
    · exact .inr ⟨hl, .inl ⟨rfl, rfl⟩⟩
    all_goals exact .inl (.inl ⟨rfl, rfl⟩)

/-- Settles O39: the step is the operation at pc, which moves pc on or fails, or the completion. -/
theorem positionMovesByOneOrLeaves : Obligations.PositionMovesByOneOrLeaves := by
  unfold Obligations.PositionMovesByOneOrLeaves
  intro s t seq pc origin hg ht h
  obtain ⟨op, hop, rfl⟩ | ⟨-, rfl⟩ := step_busy_op_cases hg ht h
  · obtain ⟨hlt, -⟩ := List.getElem?_eq_some_iff.mp hop
    rw [State.performOp_tx op ht]
    cases s.opSucceeds op with
    | true => exact .inl ⟨rfl, hlt⟩
    | false => exact .inr rfl
  · exact .inr rfl

/-- Settles O19: each is one line operation, which keeps the block and writes no latch but its own line's. -/
theorem lineOperationFrame : Obligations.LineOperationFrame := by
  unfold Obligations.LineOperationFrame
  refine fun s t => ⟨fun v h => ?_, fun v h => ?_, fun d h => ?_⟩
  · obtain ⟨-, rfl⟩ := whenLive_next h
    exact ⟨by simp, s.performOp_sameBlock _⟩
  · obtain ⟨-, rfl⟩ := whenLive_next h
    exact ⟨by simp, s.performOp_sameBlock _⟩
  · obtain ⟨-, rfl⟩ := whenLive_next h
    have hblock := s.performOp_sameBlock (.wait d)
    rw [State.performOp_wait] at hblock ⊢
    simpa using hblock

end Sys2Proof.Machine
end

section
/-! The invariant of the machine (10_state R21 to R34): the slots and the sequencer are each kept by every step, and no step
from a state that meets it faults. -/

namespace Sys2Proof.Machine

/-! ### The slots hold pixels of BFMT -/

theorem off_wf (fmt : BFmt) : (off fmt).wf fmt = true := by
  cases fmt <;> rfl

theorem bufOk_allOff (cfg : Config) : BufOk cfg (allOff cfg) := by
  refine ⟨allOff_length cfg, fun p hp => ?_⟩
  rw [List.eq_of_mem_replicate hp]
  exact off_wf cfg.bfmt

theorem BufOk.writeSlot {cfg : Config} {buf : List Pixel} (h : BufOk cfg buf) (index : Nat) {pixel : Pixel}
    (hp : pixel.wf cfg.bfmt = true) : BufOk cfg (writeSlot cfg buf index pixel) := by
  refine ⟨(writeSlot_length ..).trans h.length, fun p hmem => ?_⟩
  unfold Machine.writeSlot at hmem
  split at hmem
  · obtain hold | rfl := List.mem_or_eq_of_mem_set hmem
    · exact h.pixels p hold
    · exact hp
  · exact h.pixels p hmem

theorem decodeBVal_fmt {fmt : BFmt} {bytes : List Byte} {br : BVal} (h : decodeBVal fmt bytes = some br) :
    br.fmt = fmt := by
  unfold decodeBVal at h
  split at h <;> cases h <;> rfl

theorem decodePixel_wf {fmt : BFmt} {bytes : List Byte} {p : Pixel} (h : decodePixel fmt bytes = some p) :
    p.wf fmt = true := by
  unfold decodePixel at h
  split at h
  · obtain ⟨br, hbr, rfl⟩ := Option.map_eq_some_iff.mp h
    simpa [Pixel.wf] using decodeBVal_fmt hbr
  · cases h

theorem decodeSet_wf {fmt : BFmt} {operands : List Byte} {index : Nat} {pixel : Pixel}
    (h : decodeSet fmt operands = some (.set index pixel)) : pixel.wf fmt = true := by
  unfold decodeSet at h
  split at h
  · obtain ⟨p, hp, heq⟩ := Option.map_eq_some_iff.mp h
    cases heq
    exact decodePixel_wf hp
  · cases h

/-- Only the opcode 0x01 spells a SET. -/
theorem decodeOperands_set_wf {fmt : BFmt} {opcode : Byte} {operands : List Byte} {index : Nat} {pixel : Pixel}
    (h : decodeOperands fmt opcode operands = some (.set index pixel)) : pixel.wf fmt = true := by
  by_cases hop : opcode = 0x01#8
  · rw [decodeOperands, if_pos hop] at h
    exact decodeSet_wf h
  · unfold decodeOperands decodeBare at h
    grind [Option.map_eq_some_iff]

/-- The bytes of a SET carry a pixel of BFMT (30_encoding R80). -/
theorem decodeCmd_set_wf {fmt : BFmt} {bytes : List Byte} {index : Nat} {pixel : Pixel}
    (h : decodeCmd fmt bytes = .ok (.set index pixel)) : pixel.wf fmt = true := by
  unfold decodeCmd at h
  split at h
  · cases h
  · split at h <;> cases h
    rename_i heq
    exact decodeOperands_set_wf heq

/-- Whatever command the host presents, in bytes or as a record, a SET's pixel is of BFMT. -/
theorem presented_set_wf {cfg : Config} {item : HostItem} {index : Nat} {pixel : Pixel}
    (h : (∃ bytes, item = .command bytes ∧ decode cfg (.cmd bytes) = .ok (.set index pixel)) ∨
      (item = .record (.set index pixel) ∧ (Instr.set index pixel).isRecord cfg.bfmt = true)) :
    pixel.wf cfg.bfmt = true := by
  obtain ⟨bytes, -, hd⟩ | ⟨-, hr⟩ := h
  · exact decodeCmd_set_wf hd
  · exact hr

theorem exec_command_bufOk {i : Instr} {s t : State} (hc : i.isCommand = true)
    (hset : ∀ index pixel, i = .set index pixel → pixel.wf s.cfg.bfmt = true) (hs : BufOk s.cfg s.buf)
    (h : exec i s = .next t) : BufOk t.cfg t.buf := by
  obtain ⟨-, -, -, -, hcfg, -⟩ := exec_command_frame hc h
  rw [hcfg]
  obtain hbuf | hbuf | ⟨index, pixel, rfl, hbuf⟩ := exec_command_buf hc h
  · rwa [hbuf]
  · rw [hbuf]
    exact bufOk_allOff s.cfg
  · rw [hbuf]
    exact hs.writeSlot index (hset index pixel rfl)

theorem step_bufOk {s t : State} (hs : BufOk s.cfg s.buf) (hitems : ∀ item ∈ s.inbox, itemOk item)
    (h : step s = .next t) : BufOk t.cfg t.buf := by
  cases ht : s.tx with
  | busy seq pc origin =>
    have hblock := step_busy_sameBlock ht h
    rwa [hblock.cfg, hblock.buf]
  | idle =>
    obtain ⟨-, rfl⟩ | ⟨item, rest, i, -, hitem, hc, he⟩ | ⟨cfg, a, b, buf, rest, hin, -, ⟨-, -, rfl⟩ | rfl⟩ |
      ⟨rest, -, -, rfl⟩ | ⟨rest, -, -, rfl⟩ := step_idle_cases ht h
    · exact hs
    · refine exec_command_bufOk (s := s.setInbox rest) hc (fun index pixel hi => ?_) hs he
      subst hi
      exact presented_set_wf hitem
    · exact hitems (.construct cfg a b buf) (by simp [hin])
    all_goals exact hs

/-! ### The sequencer -/

theorem txOk_idle {s : State} (ht : s.tx = .idle) : txOk s ↔ s.clk ≠ .l1 := by
  simp only [txOk, ht]

theorem txOk_busy {s : State} {seq : List LineOp} {pc : Nat} {origin : Origin} (ht : s.tx = .busy seq pc origin) :
    txOk s ↔ s.life = .live ∧ pc ≤ seq.length ∧
      (∃ ws : List WireWord, ws.length = s.cfg.nPixels ∧ seq = displayOps s.cfg ws) ∧
      latchOk .clock (seq.take pc) s.clk ∧ latchOk .data (seq.take pc) s.dat := by
  simp only [txOk, ht]

/-- A display starts with pc within its sequence and both latches as no operation has changed them (42_transmitter R169). -/
theorem txOk_start {s : State} {origin : Origin} (hl : s.life = .live) (hs : BufOk s.cfg s.buf) (hclk : s.clk ≠ .l1)
    (ht : s.tx = .busy (displayOps s.cfg (encodeBuffer s.cfg s.buf)) 0 origin) : txOk s :=
  (txOk_busy ht).mpr ⟨hl, Nat.zero_le _, ⟨_, (encodeBuffer_length ..).trans hs.length, rfl⟩, fun _ => hclk, nofun⟩

/-- The operation at pc keeps the latches in agreement with the operations done; where it fails the clock latch is UNKNOWN,
or a DATA write failed and the clock was not high (42_transmitter R171, R178). -/
theorem txOk_performOp {s : State} {seq : List LineOp} {pc : Nat} {origin : Origin} {op : LineOp}
    (ht : s.tx = .busy seq pc origin) (hs : txOk s) (hop : seq[pc]? = some op) : txOk (s.performOp op) := by
  obtain ⟨hl, -, ⟨ws, hws, rfl⟩, hclk, hdat⟩ := (txOk_busy ht).mp hs
  obtain ⟨hlt, hget⟩ := List.getElem?_eq_some_iff.mp hop
  have htake := List.take_succ_eq_append_getElem hlt
  rw [hget] at htake
  have hblock := s.performOp_sameBlock op
  have htx := State.performOp_tx op ht
  cases hok : s.opSucceeds op with
  | true =>
    rw [hok, if_pos rfl] at htx
    rw [txOk_busy htx, hblock.life, hblock.cfg, htake]
    refine ⟨hl, hlt, ⟨ws, hws, rfl⟩, ?_⟩
    cases op with
    | wait d =>
      rw [State.performOp_wait]
      exact ⟨by simpa using latchOk_wait d hclk, by simpa using latchOk_wait d hdat⟩
    | write line v =>
      have hans : s.nextAnswer = true := hok
      exact ⟨by simpa [hans] using latchOk_write line v hclk, by simpa [hans] using latchOk_write line v hdat⟩
  | false =>
    rw [hok, if_neg Bool.false_ne_true] at htx
    rw [txOk_idle htx]
    cases op with
    | wait d => cases hok
    | write line v =>
      have hans : s.nextAnswer = false := hok
      cases line with
      | clock => simp [hans]
      | data => simpa using latchOk_clock_ne hclk ((displayOps_clockRestsLow s.cfg ws).data pc v hop)

theorem txOk_completeDisplay {s : State} {seq : List LineOp} {origin : Origin} (ht : s.tx = .busy seq seq.length origin)
    (hs : txOk s) : txOk s.completeDisplay := by
  obtain ⟨-, -, ⟨ws, -, rfl⟩, hclk, -⟩ := (txOk_busy ht).mp hs
  rw [List.take_length] at hclk
  exact (txOk_idle rfl).mpr (latchOk_clock_ne hclk (displayOps_clockRestsLow s.cfg ws).last)

theorem step_txOk {s t : State} (hs : Inv s) (h : step s = .next t) : txOk t := by
  cases ht : s.tx with
  | busy seq pc origin =>
    obtain ⟨op, hop, rfl⟩ | ⟨rfl, rfl⟩ := step_busy_op_cases hs.opGrain ht h
    · exact txOk_performOp ht hs.tx hop
    · exact txOk_completeDisplay ht hs.tx
  | idle =>
    have hclk := (txOk_idle ht).mp hs.tx
    obtain ⟨-, rfl⟩ | ⟨item, rest, i, -, -, hc, he⟩ | ⟨cfg, a, b, buf, rest, -, -, ⟨-, -, rfl⟩ | rfl⟩ |
      ⟨rest, -, -, rfl⟩ | ⟨rest, -, -, rfl⟩ := step_idle_cases ht h
    · exact hs.tx
    · obtain ⟨hl, hlife, hclk', -⟩ := exec_command_frame hc he
      have hclk' : t.clk ≠ .l1 := hclk' ▸ hclk
      obtain htx | ⟨origin, htx⟩ := exec_command_tx (s := s.setInbox rest) hc ht he
      · exact (txOk_idle htx).mpr hclk'
      · exact txOk_start (hlife.trans hl) (step_bufOk hs.slots hs.items h) hclk' htx
    · exact (txOk_idle rfl).mpr (by simp)
    all_goals exact (txOk_idle (by exact ht)).mpr hclk

/-! ### No fault but an overrun -/

theorem whenReady_ne_fault (s next : State) (r : Fault) : whenReady s next ≠ .fault r := by
  unfold whenReady
  split <;> simp

theorem whenLive_ne_fault (s next : State) (r : Fault) : whenLive s next ≠ .fault r := by
  unfold whenLive
  split <;> simp

theorem exec_ne_fault (i : Instr) (s : State) (r : Fault) : exec i s ≠ .fault r := by
  cases i with
  | set _ _ | clearAll | display | size | snapshot | encode _ | reservedCmd _ => exact whenReady_ne_fault s _ r
  | ledFrame _ _ _ _ | startFrame | endFrame | setData _ | setClk _ | wait _ => exact whenLive_ne_fault s _ r

theorem constructDriver_ne_fault (cfg : Config) (a b : Bool) (buf : List Pixel) (s : State) (r : Fault) :
    constructDriver cfg a b buf s ≠ .fault r := by
  unfold constructDriver
  split
  · split <;> nofun
  · nofun

theorem renew_ne_fault (s : State) (r : Fault) : renew s ≠ .fault r := by
  unfold renew
  split <;> nofun

theorem hostMove_ne_fault (s : State) (r : Fault) : hostMove s ≠ .other (.fault r) := by
  intro h
  unfold hostMove at h
  split at h
  · cases h
  · split at h <;> cases h
  · split at h <;> cases h
  · exact constructDriver_ne_fault _ _ _ _ _ r (Move.other.inj h)
  · exact whenReady_ne_fault _ _ r (Move.other.inj h)
  · exact renew_ne_fault _ r (Move.other.inj h)

theorem step_idle_ne_fault {s : State} (ht : s.tx = .idle) (r : Fault) : step s ≠ .fault r := by
  cases hm : hostMove s with
  | run i t =>
    rw [step_of_run ((nextMove_idle ht).trans hm)]
    exact exec_ne_fault i t r
  | other o =>
    rw [step_of_other ((nextMove_idle ht).trans hm)]
    rintro rfl
    exact hostMove_ne_fault s r hm

/-! ### The invariant -/

/-- Settles O35: the grain never changes, the host's items only get fewer, and the slots and the sequencer are kept by
`step_bufOk` and `step_txOk`. -/
theorem stepKeepsInvariant : Obligations.StepKeepsInvariant := by
  unfold Obligations.StepKeepsInvariant
  intro s t hs h
  exact {
    opGrain := (step_grain h).trans hs.opGrain
    slots := step_bufOk hs.slots hs.items h
    items := fun item hmem => hs.items item ((step_inbox_suffix h).subset hmem)
    tx := step_txOk hs h }

/-- Settles O36: within the sequence there is an operation to perform or the end to complete, and nothing else faults. -/
theorem noFaultUnderInvariant : Obligations.NoFaultUnderInvariant := by
  unfold Obligations.NoFaultUnderInvariant
  intro s r hs
  cases ht : s.tx with
  | idle => exact step_idle_ne_fault ht r
  | busy seq pc origin =>
    obtain ⟨hl, hle, -⟩ := (txOk_busy ht).mp hs.tx
    obtain rfl | hlt := hle.eq_or_lt
    · rw [step_busy_end ht]
      nofun
    · rw [step_busy_op hl hs.opGrain ht (List.getElem?_eq_getElem hlt)]
      nofun

/-- Settles O34: the slots at reset are all OFF, and the rest is read off the state. -/
theorem resetMeetsInvariant : Obligations.ResetMeetsInvariant := by
  unfold Obligations.ResetMeetsInvariant
  have hinv : Inv State.reset := {
    opGrain := rfl
    slots := bufOk_allOff Config.default
    items := nofun
    tx := (txOk_idle rfl).mpr nofun }
  exact ⟨hinv, rfl, rfl, rfl, rfl, rfl, rfl, ⟨rfl, rfl, rfl, rfl, rfl, rfl⟩⟩

end Sys2Proof.Machine
end

section
/-! Separation (20_memory R55 to R60): what a command of the response alone, a step of an IDLE block and a step of a BUSY
block leave as it is. -/

namespace Sys2Proof.Machine

/-- Settles O37: a running display keeps the block. -/
theorem busyStepKeepsBuffer : Obligations.BusyStepKeepsBuffer := by
  unfold Obligations.BusyStepKeepsBuffer
  intro s t hb h
  cases ht : s.tx with
  | idle => exact absurd ht hb
  | busy seq pc origin => exact step_busy_sameBlock ht h

/-- Settles O38: a command drives no line, and of the lifecycle steps only a construction touches the latches. -/
theorem idleStepDrivesNoLine : Obligations.IdleStepDrivesNoLine := by
  unfold Obligations.IdleStepDrivesNoLine
  intro s t ht h
  obtain ⟨-, rfl⟩ | ⟨item, rest, i, -, -, hc, he⟩ | ⟨cfg, a, b, buf, rest, -, hl, ⟨-, -, rfl⟩ | rfl⟩ |
    ⟨rest, -, -, rfl⟩ | ⟨rest, -, -, rfl⟩ := step_idle_cases ht h
  · exact ⟨rfl, rfl, rfl, .inl ⟨rfl, rfl⟩⟩
  · obtain ⟨-, -, hclk, hdat, -, -, hanswers, hattempts, hlog, -⟩ := exec_command_frame hc he
    exact ⟨hlog, hattempts, hanswers, .inl ⟨hclk, hdat⟩⟩
  · exact ⟨rfl, rfl, rfl, .inr hl⟩
  · exact ⟨rfl, rfl, rfl, .inr hl⟩
  all_goals exact ⟨rfl, rfl, rfl, .inl ⟨rfl, rfl⟩⟩

/-- A command that only responds was accepted, or it is held. -/
theorem whenReady_respond_next {s t : State} {r : Response} (h : whenReady s (s.respond r) = .next t) :
    t = s ∨ ∃ r, t = s.respond r := by
  obtain ⟨-, ⟨-, ht⟩ | ⟨-, ht⟩⟩ := whenReady_next h
  · exact .inr ⟨r, ht⟩
  · exact .inl ht

/-- SIZE, SNAPSHOT, ENCODE and a reserved opcode respond and do nothing else, or are held. -/
theorem exec_responseOnly {i : Instr} {s t : State}
    (hi : i = .size ∨ i = .snapshot ∨ (∃ pixel, i = .encode pixel) ∨ ∃ opcode, i = .reservedCmd opcode)
    (h : exec i s = .next t) : t = s ∨ ∃ r, t = s.respond r := by
  obtain rfl | rfl | ⟨pixel, rfl⟩ | ⟨opcode, rfl⟩ := hi
  all_goals exact whenReady_respond_next h

/-- Settles O11: a response, like a command that is held, leaves every other part of the state. -/
theorem responseOnlyCommandFrame : Obligations.ResponseOnlyCommandFrame := by
  unfold Obligations.ResponseOnlyCommandFrame
  intro i s t hi h
  obtain rfl | ⟨r, rfl⟩ := exec_responseOnly hi h <;> simp

end Sys2Proof.Machine
end

section
/-! The frame grain against the spec's (42_transmitter R170 to R172): what the transmitter fetches, at either grain, performs
line operations that stand next in the sequence; steps of one operation each perform the same, and no line operation reads
the grain. -/

namespace Sys2Proof.Machine

/-! ### The line operations of an instruction -/

/-- The line operations an instruction performs; a command of the port performs none. -/
def lineOps (cfg : Config) : Instr → List LineOp
  | .setData v => [.write .data v]
  | .setClk v => [.write .clock v]
  | .wait d => [.wait d]
  | .startFrame => startOps cfg
  | .endFrame => endOps cfg
  | .ledFrame level blue green red => wordOps cfg.delay (ledFrameWord cfg level blue green red)
  | _ => []

theorem exec_lineOps {i : Instr} (s : State) (hc : i.isCommand = false) :
    exec i s = whenLive s (s.performOps (lineOps s.cfg i)) := by
  cases i with
  | setData v | setClk v | wait d => exact congrArg (whenLive s) (s.performOps_singleton _).symm
  | startFrame | endFrame | ledFrame level blue green red => rfl
  | _ => cases hc

@[simp] theorem lineOps_instrOfOp (cfg : Config) (op : LineOp) : lineOps cfg (instrOfOp op) = [op] := by
  cases op with
  | write line v => cases line <;> rfl
  | wait d => rfl

/-- The longest is a word: 32 bit cells of 5 operations (42_transmitter R174). -/
theorem lineOps_length {cfg : Config} {i : Instr} (hlit : cfg.SourceLiterals) (hc : i.isCommand = false) :
    1 ≤ (lineOps cfg i).length ∧ (lineOps cfg i).length ≤ 160 := by
  cases i with
  | setData v | setClk v | wait d => simp [lineOps]
  | startFrame => simp [lineOps, hlit.startPulses]
  | endFrame => simp [lineOps, hlit.endPulses]
  | ledFrame level blue green red => simp [lineOps]
  | _ => cases hc

/-- The LED frame decoded from a word puts that word's bytes on the wire (30_encoding R71). -/
theorem decodeWire32_lineOps {cfg : Config} {w : Word} {i : Instr} (h : decodeWire32 cfg w = .ok i) :
    lineOps cfg i = wordOps cfg.delay (WireWord.ofWord w) := by
  unfold decodeWire32 at h
  dsimp only at h
  split at h <;> cases h
  next hbyte => simp only [lineOps, ledFrameWord, hbyte, WireWord.ofWord]

theorem frameAt_lineOps {cfg : Config} {ops : List LineOp} {i : Instr} (h : frameAt cfg ops = some i) :
    lineOps cfg i <+: ops := by
  unfold frameAt at h
  split at h
  next hend => cases h; exact List.isPrefixOf_iff_prefix.mp hend
  split at h
  next hstart => cases h; exact List.isPrefixOf_iff_prefix.mp hstart
  split at h
  next hword =>
    cases hd : decodeWire32 cfg (cellWord ops) with
    | error why => simp [hd, Except.toOption] at h
    | ok j =>
      obtain rfl : j = i := by simpa [hd, Except.toOption] using h
      rw [decodeWire32_lineOps hd]
      exact List.isPrefixOf_iff_prefix.mp hword
  next => cases h

/-- What the transmitter fetches, at either grain, is what stands next in the sequence. -/
theorem fetchTx_lineOps (grain : Grain) (cfg : Config) (op : LineOp) (rest : List LineOp) :
    lineOps cfg (fetchTx grain cfg op rest) <+: op :: rest := by
  have hone : lineOps cfg (instrOfOp op) <+: op :: rest := by simp
  cases grain with
  | op => exact hone
  | frame =>
    cases h : frameAt cfg (op :: rest) with
    | none => simp [fetchTx, h]
    | some i => simpa [fetchTx, h] using frameAt_lineOps h

/-! ### No line operation reads the grain -/

theorem State.advance_setGrain (s : State) (grain : Grain) :
    (s.setGrain grain).advance = s.advance.setGrain grain := by
  cases ht : s.tx with
  | idle => simp only [State.advance, State.setGrain_tx, ht]
  | busy seq pc origin => simp only [State.advance, State.setGrain_tx, ht]; rfl

theorem State.abortDisplay_setGrain (s : State) (grain : Grain) (line : Line) :
    (s.setGrain grain).abortDisplay line = (s.abortDisplay line).setGrain grain := by
  cases ht : s.tx with
  | idle => simp only [State.abortDisplay, State.setGrain_tx, ht]
  | busy seq pc origin => simp only [State.abortDisplay, State.setGrain_tx, ht]; rfl

theorem State.nextAnswer_setGrain (s : State) (grain : Grain) : (s.setGrain grain).nextAnswer = s.nextAnswer := rfl

theorem State.lineWrite_setGrain (s : State) (grain : Grain) (line : Line) (v : Bool) :
    (s.setGrain grain).lineWrite line v = (s.lineWrite line v).setGrain grain := by
  cases line <;> rfl

theorem State.performOp_setGrain (s : State) (grain : Grain) (op : LineOp) :
    (s.setGrain grain).performOp op = (s.performOp op).setGrain grain := by
  cases op with
  | wait d => exact (s.record (.wait d)).advance_setGrain grain
  | write line v =>
    simp only [State.performOp, State.nextAnswer_setGrain, State.lineWrite_setGrain, State.advance_setGrain,
      State.abortDisplay_setGrain]
    split <;> rfl

theorem State.opSucceeds_setGrain (s : State) (grain : Grain) (op : LineOp) :
    (s.setGrain grain).opSucceeds op = s.opSucceeds op := by
  cases op <;> rfl

theorem State.performOps_setGrain (ops : List LineOp) (s : State) (grain : Grain) :
    (s.setGrain grain).performOps ops = (s.performOps ops).setGrain grain := by
  induction ops generalizing s with
  | nil => rfl
  | cons op rest ih =>
    simp only [State.performOps, State.opSucceeds_setGrain, State.performOp_setGrain, ih]
    split <;> rfl

/-! ### Steps at the spec's grain -/

/-- Operations that stand next in the sequence are performed by that many steps, or by fewer when one fails. -/
theorem runFor_performOps {s : State} {seq : List LineOp} {pc : Nat} {origin : Origin} {ops : List LineOp}
    (hl : s.life = .live) (hg : s.grain = .op) (ht : s.tx = .busy seq pc origin) (hops : ops <+: seq.drop pc) :
    ∃ k, (ops ≠ [] → 1 ≤ k) ∧ k ≤ ops.length ∧ runFor k s = .next (s.performOps ops) := by
  induction ops generalizing s pc with
  | nil => exact ⟨0, absurd rfl, le_rfl, rfl⟩
  | cons op rest ih =>
    obtain ⟨after, hdrop⟩ := hops
    have hop : seq[pc]? = some op := by rw [← List.head?_drop, ← hdrop]; rfl
    have hrest : rest <+: seq.drop (pc + 1) := ⟨after, by rw [← List.tail_drop, ← hdrop]; rfl⟩
    have hstep := step_busy_op hl hg ht hop
    cases hok : s.opSucceeds op with
    | false =>
      rw [State.performOps_cons_fail rest hok]
      exact ⟨1, fun _ => le_rfl, by simp, by rw [runFor_succ, hstep]; rfl⟩
    | true =>
      have hblock := s.performOp_sameBlock op
      have htx := State.performOp_tx op ht
      rw [hok, if_pos rfl] at htx
      obtain ⟨k, -, hk, hrun⟩ := ih (hblock.life.trans hl) (hblock.grain.trans hg) htx hrest
      rw [State.performOps_cons_ok rest hok]
      exact ⟨k + 1, fun _ => Nat.succ_pos k, Nat.succ_le_succ hk, by rw [runFor_succ, hstep]; exact hrun⟩

/-- Settles O45: the step completes the display, which is a step at the spec's grain too, or performs the line operations of
what it fetched, and those stand next in the sequence. -/
theorem frameStepIsRunOfLineOperations : Obligations.FrameStepIsRunOfLineOperations := by
  unfold Obligations.FrameStepIsRunOfLineOperations
  intro s t seq pc origin hlit _ ht h
  obtain ⟨op, rest, hdrop, he⟩ | ⟨rfl, rfl⟩ := step_busy_cases ht h
  · have hc := fetchTx_isCommand s.grain s.cfg op rest
    have hnext := fetchTx_lineOps s.grain s.cfg op rest
    rw [exec_lineOps s hc] at he
    obtain ⟨hl, rfl⟩ := whenLive_next he
    obtain ⟨hpos, hle⟩ := lineOps_length hlit hc
    obtain ⟨k, hk, hkle, hrun⟩ := runFor_performOps (s := s.setGrain .op) hl rfl ht (hdrop ▸ hnext)
    rw [State.performOps_setGrain] at hrun
    exact ⟨k, hk (List.ne_nil_of_length_pos hpos), hkle.trans hle, hrun⟩
  · have hstep := step_busy_end (s := s.setGrain .op) ht
    exact ⟨1, le_rfl, by decide, by change runFor 1 (s.setGrain .op) = _; rw [runFor_succ, hstep]; rfl⟩

end Sys2Proof.Machine
end

section
/-! The decoder and the encoder invert each other (30_encoding R71 to R83): said once for each part of a command and for the
LED frame, as what the decoder accepts and what it reads, then for every instruction and every code. -/

namespace Sys2Proof

/-! ### What each part of the decoder accepts -/

theorem bytesOfDword_dwordOfWords (hi lo : Word) :
    bytesOfDword (dwordOfWords hi lo) = bytesOfWord hi ++ bytesOfWord lo := by
  rw [bytesOfDword, dwordOfWords, BitVec.extractLsb'_append_eq_left, BitVec.extractLsb'_append_eq_right]

theorem decodeBVal_eq_some {fmt : BFmt} {bytes : List Byte} {br : BVal} :
    decodeBVal fmt bytes = some br ↔ br.fmt = fmt ∧ encodeBVal br = bytes := by
  constructor
  · intro h
    refine ⟨Machine.decodeBVal_fmt h, ?_⟩
    unfold decodeBVal at h
    split at h <;> cases h
    · exact bytesOfWord_wordOfBytes ..
    · simp only [encodeBVal, bytesOfDword_dwordOfWords, bytesOfWord_wordOfBytes, List.cons_append, List.nil_append]
  · rintro ⟨rfl, rfl⟩
    exact decodeBVal_encodeBVal br

theorem decodePixel_eq_some {fmt : BFmt} {bytes : List Byte} {p : Pixel} :
    decodePixel fmt bytes = some p ↔ p.brightness.fmt = fmt ∧ encodePixelOperands p = bytes := by
  constructor
  · intro h
    unfold decodePixel at h
    split at h
    · obtain ⟨br, hbr, rfl⟩ := Option.map_eq_some_iff.mp h
      obtain ⟨hfmt, rfl⟩ := decodeBVal_eq_some.mp hbr
      exact ⟨hfmt, rfl⟩
    · cases h
  · rintro ⟨rfl, rfl⟩
    exact decodePixel_encodePixelOperands p

/-- SET's operands are the index, as u32, and the pixel (30_encoding R80). -/
theorem decodeSet_eq_some {fmt : BFmt} {bytes : List Byte} {i : Instr} :
    decodeSet fmt bytes = some i ↔ ∃ index pixel, i = .set index pixel ∧ index < 2 ^ 32 ∧ pixel.brightness.fmt = fmt ∧
      bytesOfWord (BitVec.ofNat 32 index) ++ encodePixelOperands pixel = bytes := by
  constructor
  · intro h
    unfold decodeSet at h
    split at h
    · next i3 i2 i1 i0 operands =>
      obtain ⟨pixel, hp, rfl⟩ := Option.map_eq_some_iff.mp h
      obtain ⟨hfmt, rfl⟩ := decodePixel_eq_some.mp hp
      refine ⟨_, pixel, rfl, (wordOfBytes i3 i2 i1 i0).isLt, hfmt, ?_⟩
      rw [BitVec.ofNat_toNat, BitVec.setWidth_eq, bytesOfWord_wordOfBytes]
      rfl
    · cases h
  · rintro ⟨index, pixel, rfl, hlt, rfl, rfl⟩
    simp only [bytesOfWord, List.cons_append, List.nil_append, decodeSet, wordOfBytes_bytesOfWord,
      decodePixel_encodePixelOperands, Option.map_some, BitVec.toNat_ofNat, Nat.mod_eq_of_lt hlt]

theorem decodeBare_eq_some {i j : Instr} {bytes : List Byte} : decodeBare i bytes = some j ↔ bytes = [] ∧ j = i := by
  cases bytes <;> simp [decodeBare, eq_comm]

/-- The opcodes of the six commands are just those that are not reserved (30_encoding R79, R81). -/
theorem reservedOpcode_iff {opcode : Byte} : reservedOpcode opcode = true ↔
    opcode ≠ 0x01#8 ∧ opcode ≠ 0x02#8 ∧ opcode ≠ 0x03#8 ∧ opcode ≠ 0x04#8 ∧ opcode ≠ 0x05#8 ∧ opcode ≠ 0x06#8 := by
  simp only [reservedOpcode, Bool.or_eq_true, decide_eq_true_eq]
  bv_omega

theorem decodeOperands_reserved {opcode : Byte} (h : reservedOpcode opcode = true) (fmt : BFmt) (operands : List Byte) :
    decodeOperands fmt opcode operands = some (.reservedCmd opcode) := by
  obtain ⟨h1, h2, h3, h4, h5, h6⟩ := reservedOpcode_iff.mp h
  simp only [decodeOperands, if_neg h1, if_neg h2, if_neg h3, if_neg h4, if_neg h5, if_neg h6]

/-- 32 bits are an LED frame when they are the word of its fields and its level can be read back (30_encoding R71, R77). -/
theorem decodeWire32_eq_ok {cfg : Config} {w : Word} {i : Instr} :
    decodeWire32 cfg w = .ok i ↔ ∃ level blue green red, i = .ledFrame level blue green red ∧
      wireLevel cfg (brightnessByte cfg level) = level ∧ (ledFrameWord cfg level blue green red).toWord = w := by
  constructor
  · intro h
    unfold decodeWire32 at h
    dsimp only at h
    split at h <;> cases h
    next hbyte =>
      refine ⟨_, _, _, _, rfl, by rw [hbyte], ?_⟩
      rw [ledFrameWord, hbyte]
      exact WireWord.toWord_ofWord w
  · rintro ⟨level, blue, green, red, rfl, hlevel, rfl⟩
    have hfields := WireWord.ofWord_toWord (ledFrameWord cfg level blue green red)
    simp only [WireWord.ofWord, ledFrameWord, WireWord.mk.injEq] at hfields
    obtain ⟨hbright, hblue, hgreen, hred⟩ := hfields
    simp only [decodeWire32, ledFrameWord, hbright, hblue, hgreen, hred, hlevel, if_pos]

/-! ### Every code of an instruction decodes to it -/

/-- All four 2-bit codes are line writes (30_encoding R83). -/
theorem exists_encodeLineOp (code : BitVec 2) : ∃ line v, encodeLineOp line v = code :=
  ⟨if code.getLsbD 1 then .clock else .data, code.getLsbD 0, by revert code; decide⟩

theorem decodeLineOp_encodeLineOp (line : Line) (v : Bool) :
    decodeLineOp (encodeLineOp line v) = Machine.instrOfOp (.write line v) := by
  cases line <;> cases v <;> rfl

theorem decodeCmd_of_operands {fmt : BFmt} {opcode : Byte} {operands : List Byte} {i : Instr}
    (h : decodeOperands fmt opcode operands = some i) : decodeCmd fmt (opcode :: operands) = .ok i := by
  simp only [decodeCmd, h]

theorem decode_codeOf {cfg : Config} {i : Instr} (hw : i.wf cfg = true) : decode cfg (codeOf cfg i) = .ok i := by
  cases i with
  | set index pixel =>
    simp only [Instr.wf, Pixel.wf, Bool.and_eq_true, decide_eq_true_eq] at hw
    obtain ⟨hlt, hfmt⟩ := hw
    exact decodeCmd_of_operands (decodeSet_eq_some.mpr ⟨index, pixel, rfl, hlt, hfmt, rfl⟩)
  | encode pixel =>
    simp only [Instr.wf, Pixel.wf, decide_eq_true_eq] at hw
    exact decodeCmd_of_operands (Option.map_eq_some_iff.mpr ⟨pixel, decodePixel_eq_some.mpr ⟨hw, rfl⟩, rfl⟩)
  | clearAll | display | size | snapshot => rfl
  | reservedCmd opcode => exact decodeCmd_of_operands (decodeOperands_reserved hw cfg.bfmt [])
  | ledFrame level blue green red =>
    exact decodeWire32_eq_ok.mpr ⟨level, blue, green, red, rfl, of_decide_eq_true hw, rfl⟩
  | startFrame | endFrame => exact if_pos rfl
  | setData v => exact congrArg Except.ok (decodeLineOp_encodeLineOp .data v)
  | setClk v => exact congrArg Except.ok (decodeLineOp_encodeLineOp .clock v)
  | wait d => rw [of_decide_eq_true hw]; rfl

/-! ### What decodes to an instruction is its code -/

/-- `code` spells `i`: it is the code of `i`, which is well-formed, or `i` is a reserved opcode, after which the spec does
not give the bytes (log entry 18). -/
def Spells (cfg : Config) (code : Code) (i : Instr) : Prop :=
  i.wf cfg = true ∧ ((∀ opcode, i ≠ .reservedCmd opcode) → codeOf cfg i = code)

theorem decodeBare_spells {cfg : Config} {opcode : Byte} {operands : List Byte} {i j : Instr} (hw : i.wf cfg = true)
    (hc : codeOf cfg i = .cmd [opcode]) (h : decodeBare i operands = some j) : Spells cfg (.cmd (opcode :: operands)) j := by
  obtain ⟨rfl, rfl⟩ := decodeBare_eq_some.mp h
  exact ⟨hw, fun _ => hc⟩

theorem decodeOperands_spells {cfg : Config} {opcode : Byte} {operands : List Byte} {i : Instr}
    (h : decodeOperands cfg.bfmt opcode operands = some i) : Spells cfg (.cmd (opcode :: operands)) i := by
  unfold decodeOperands at h
  split at h
  next hop =>
    obtain ⟨index, pixel, rfl, hlt, hfmt, rfl⟩ := decodeSet_eq_some.mp h
    exact ⟨by simp [Instr.wf, Pixel.wf, hlt, hfmt], fun _ => hop ▸ rfl⟩
  split at h
  next hop => exact decodeBare_spells rfl (hop ▸ rfl) h
  split at h
  next hop => exact decodeBare_spells rfl (hop ▸ rfl) h
  split at h
  next hop => exact decodeBare_spells rfl (hop ▸ rfl) h
  split at h
  next hop => exact decodeBare_spells rfl (hop ▸ rfl) h
  split at h
  next hop =>
    obtain ⟨pixel, hp, rfl⟩ := Option.map_eq_some_iff.mp h
    obtain ⟨hfmt, rfl⟩ := decodePixel_eq_some.mp hp
    exact ⟨by simp [Instr.wf, Pixel.wf, hfmt], fun _ => hop ▸ rfl⟩
  next h1 h2 h3 h4 h5 h6 =>
    cases h
    exact ⟨reservedOpcode_iff.mpr ⟨h1, h2, h3, h4, h5, h6⟩, fun hne => absurd rfl (hne opcode)⟩

theorem decodeLineOp_spells (cfg : Config) (code : BitVec 2) : Spells cfg (.lineOp code) (decodeLineOp code) := by
  obtain ⟨line, v, rfl⟩ := exists_encodeLineOp code
  rw [decodeLineOp_encodeLineOp]
  cases line <;> exact ⟨rfl, fun _ => rfl⟩

/-- The decoder reads an instruction from nothing but its code. -/
theorem spells_of_decode {cfg : Config} {code : Code} {i : Instr} (h : decode cfg code = .ok i) : Spells cfg code i := by
  cases code with
  | cmd bytes =>
    cases bytes with
    | nil => cases h
    | cons opcode operands =>
      simp only [decode, decodeCmd] at h
      split at h <;> cases h
      next ho => exact decodeOperands_spells ho
  | wire32 w =>
    obtain ⟨level, blue, green, red, rfl, hlevel, rfl⟩ := decodeWire32_eq_ok.mp h
    exact ⟨decide_eq_true hlevel, fun _ => rfl⟩
  | wireStart bits =>
    simp only [decode, decodeWireStart] at h
    split at h <;> cases h
    next hbits => exact ⟨rfl, fun _ => hbits ▸ rfl⟩
  | wireEnd bits =>
    simp only [decode, decodeWireEnd] at h
    split at h <;> cases h
    next hbits => exact ⟨rfl, fun _ => hbits ▸ rfl⟩
  | lineOp code => cases h; exact decodeLineOp_spells cfg code
  | waitToken => cases h; exact ⟨decide_eq_true rfl, fun _ => rfl⟩

/-! ### The statements -/

/-- Settles O47: the encoder gives a well-formed instruction the code of the tables, which decodes to it; the level of an LED
frame can be read back, and a SET is well-formed by its index once its pixel is of BFMT. -/
theorem decodeInvertsEncode : Obligations.DecodeInvertsEncode := by
  unfold Obligations.DecodeInvertsEncode
  refine ⟨fun cfg i hw => ⟨_, encode_eq_some.mpr ⟨hw, rfl⟩, decode_codeOf hw⟩,
    fun cfg level _ _ _ hlit => decide_eq_true (wireLevel_brightnessByte hlit level), fun cfg index pixel hfmt => ?_⟩
  have hwf : (Instr.set index pixel).wf cfg = true ↔ index < 2 ^ 32 := by
    simp [Instr.wf, Pixel.wf, hfmt, Config.indexBits]
  exact ⟨hwf, fun hle => if_neg (mt hwf.mp hle.not_gt)⟩

/-- Settles O48: what the decoder accepts spells the instruction it reads. -/
theorem encodeInvertsDecode : Obligations.EncodeInvertsDecode := by
  unfold Obligations.EncodeInvertsDecode
  intro cfg code i h
  obtain ⟨hw, hcode⟩ := spells_of_decode h
  exact ⟨hw, fun hne => encode_eq_some.mpr ⟨hw, hcode hne⟩⟩

/-- Settles O54: with the source's literals the brightness byte is 111 and the level, which can be read back from it. -/
theorem encoderBuildsLedFrameWord : Obligations.EncoderBuildsLedFrameWord := by
  unfold Obligations.EncoderBuildsLedFrameWord
  intro cfg p hlit
  have hbyte := brightnessByte_eq hlit (Machine.quantise cfg p.brightness)
  refine ⟨?_, decodeWire32_eq_ok.mpr ⟨_, _, _, _, rfl, wireLevel_brightnessByte hlit _, rfl⟩, ?_⟩
  · simp only [Machine.encodePixel, ledFrameWord, WireWord.toWord, hbyte]
    rfl
  · simp only [Machine.encodePixel, ledFrameWord, hbyte]
    generalize Machine.quantise cfg p.brightness = level
    revert level
    decide

/-- Settles O49: the commands' bytes are read off the decoder's tables; the wire frames are those of the literals. -/
theorem sampleWordsDecode : Obligations.SampleWordsDecode := by
  unfold Obligations.SampleWordsDecode
  intro cfg hlit hfmt
  have hled : (ledFrameWord cfg 0b01111#5 0x56#8 0x34#8 0x12#8).toWord = 0b11101111010101100011010000010010#32 := by
    simp only [ledFrameWord, brightnessByte_eq hlit]
    rfl
  refine ⟨?_, ?_, rfl, rfl, decodeWire32_eq_ok.mpr ⟨_, _, _, _, rfl, wireLevel_brightnessByte hlit _, hled⟩,
    if_pos (by rw [hlit.startPulses]), if_pos (by rw [hlit.endPulses]), rfl, rfl⟩
  · rw [decode, hfmt]
    rfl
  · rw [decode, hfmt]
    rfl

end Sys2Proof
end

section
/-! Reading a wire frame back from the line operations that send it (42_transmitter R163 to R167): DATA at the bit cells of a
word is the word, most significant bit first. -/

namespace Sys2Proof.Machine

/-! ### The bits of a word in the order they are sent -/

/-- The 32 bits of a wire word in the order they are sent (42_transmitter R165, R166). -/
def wordBits (w : WireWord) : List Bool :=
  bitsOfByte w.brightness ++ bitsOfByte w.blue ++ bitsOfByte w.green ++ bitsOfByte w.red

@[simp] theorem wordBits_length (w : WireWord) : (wordBits w).length = 32 := rfl

theorem wordOps_eq_flatMap (d : Nat) (w : WireWord) : wordOps d w = (wordBits w).flatMap (bitOps d) := by
  simp only [wordBits, List.flatMap_append]
  rfl

theorem wordBits_getElem? (w : WireWord) {k : Nat} (hk : k < 32) :
    (wordBits w)[k]? = some (w.toWord.getLsbD (31 - k)) := by
  rw [WireWord.toWord, wordOfBytes_getLsbD]
  interval_cases k <;> rfl

/-! ### The word that bit cells carry -/

theorem cellBit_flatMap (d : Nat) (bits : List Bool) (m : Nat) : cellBit (bits.flatMap (bitOps d)) m = bits[m]?.getD false := by
  induction bits generalizing m with
  | nil => rfl
  | cons v bits ih =>
    cases m with
    | zero => rfl
    | succ m => exact ih m

theorem cellByte_getLsbD (ops : List LineOp) (m : Nat) {k : Nat} (hk : k < 8) :
    (cellByte ops m).getLsbD k = cellBit ops (m + (7 - k)) := by
  simp only [cellByte, BitVec.getLsbD_append, BitVec.getLsbD_ofBool]
  interval_cases k <;> simp

theorem cellWord_getLsbD (ops : List LineOp) {k : Nat} (hk : k < 32) : (cellWord ops).getLsbD k = cellBit ops (31 - k) := by
  rw [cellWord, wordOfBytes_getLsbD]
  split
  next h => rw [cellByte_getLsbD ops 24 h]; congr 1; omega
  split
  next h => rw [cellByte_getLsbD ops 16 (by omega)]; congr 1; omega
  split
  next h => rw [cellByte_getLsbD ops 8 (by omega)]; congr 1; omega
  rw [cellByte_getLsbD ops 0 (by omega)]; congr 1; omega

theorem cellWord_wordOps (d : Nat) (w : WireWord) : cellWord (wordOps d w) = w.toWord := by
  apply BitVec.eq_of_getLsbD_eq
  intro k hk
  rw [cellWord_getLsbD _ hk, wordOps_eq_flatMap, cellBit_flatMap, wordBits_getElem? w (by omega), Option.getD_some]
  congr 1
  omega

/-! ### The wire frame that the sequence begins with -/

theorem frameAt_endOps (cfg : Config) : frameAt cfg (endOps cfg) = some .endFrame :=
  if_pos (by simp)

/-- A start frame is no end frame when it has fewer pulses (00_scope R8, R9). -/
theorem frameAt_startOps {cfg : Config} (h : cfg.startPulses < cfg.endPulses) :
    frameAt cfg (startOps cfg) = some .startFrame := by
  have hend : ¬(endOps cfg).isPrefixOf (startOps cfg) = true := fun hp => by
    have hle := (List.isPrefixOf_iff_prefix.mp hp).length_le
    simp only [endOps_length, startOps_length] at hle
    omega
  rw [frameAt, if_neg hend, if_pos (by simp)]

/-- An LED frame begins with a 1, where a start frame and an end frame begin with a 0 (30_encoding R71, R73, R74). -/
theorem wordOps_ledFrameWord_head {cfg : Config} (hlit : cfg.SourceLiterals) (d : Nat) (level : BrightLevel)
    (blue green red : Byte) : ∃ rest, wordOps d (ledFrameWord cfg level blue green red) = .write .data true :: rest := by
  have hbit : (brightnessByte cfg level).getLsbD 7 = true := by
    rw [brightnessByte_eq hlit, BitVec.getLsbD_append]
    rfl
  exact ⟨_, by rw [← hbit]; rfl⟩

theorem frameAt_wordOps {cfg : Config} {w : Word} {i : Instr} (hlit : cfg.SourceLiterals) (h : decodeWire32 cfg w = .ok i) :
    frameAt cfg (wordOps cfg.delay (WireWord.ofWord w)) = some i := by
  obtain ⟨level, blue, green, red, -, -, rfl⟩ := decodeWire32_eq_ok.mp h
  obtain ⟨rest, hrest⟩ := wordOps_ledFrameWord_head hlit cfg.delay level blue green red
  rw [WireWord.ofWord_toWord, frameAt, if_neg (by simp [hrest, endOps]), if_neg (by simp [hrest, startOps]),
    cellWord_wordOps, WireWord.ofWord_toWord, if_pos (by simp), h]
  rfl

/-! ### What the step of a block that runs a display runs -/

theorem step_run_op {s : State} {seq : List LineOp} {pc : Nat} {origin : Origin} {op : LineOp} (hg : s.grain = .op)
    (ht : s.tx = .busy seq pc origin) (hop : seq[pc]? = some op) : step s = exec (instrOfOp op) s := by
  obtain ⟨hlt, hget⟩ := List.getElem?_eq_some_iff.mp hop
  refine step_of_run ?_
  rw [nextMove_busy ht, transmitterMove, List.drop_eq_getElem_cons hlt, hget, hg]
  rfl

theorem lineOps_ne_nil {cfg : Config} {i : Instr} (hc : i.isCommand = false) : lineOps cfg i ≠ [] := by
  cases i with
  | setData v | setClk v | wait d | startFrame | endFrame => exact List.cons_ne_nil _ _
  | ledFrame level blue green red => exact List.ne_nil_of_length_pos (by simp [lineOps])
  | _ => cases hc

/-- No wire frame is empty, so one stands at pc only where the sequence has an operation. -/
theorem step_run_frame {s : State} {seq : List LineOp} {pc : Nat} {origin : Origin} {i : Instr} (hg : s.grain = .frame)
    (ht : s.tx = .busy seq pc origin) (hi : frameAt s.cfg (seq.drop pc) = some i) : step s = exec i s := by
  refine step_of_run ?_
  cases hdrop : seq.drop pc with
  | nil =>
    have hops := frameAt_lineOps hi
    rw [hdrop, List.prefix_nil] at hops
    exact absurd hops (lineOps_ne_nil (frameAt_isCommand hi))
  | cons op rest =>
    rw [hdrop] at hi
    rw [nextMove_busy ht, transmitterMove, hdrop, hg]
    simp only [fetchTx, hi, Option.getD_some]

/-- Settles O28: at frame grain the transmitter fetches the frame that stands at pc. -/
theorem stepRunsFrameAtPosition : Obligations.StepRunsFrameAtPosition := by
  unfold Obligations.StepRunsFrameAtPosition
  exact fun _ _ _ _ _ => step_run_frame

/-! ### A placed code -/

/-- The state a code of a wire frame or of a line operation is placed in (log entry 16). -/
theorem State.placeCode_eq_busy {s : State} {code : Code} (h : ∀ bytes, code ≠ .cmd bytes) :
    ∃ grain, s.placeCode code =
      { s with life := .live, tx := .busy (opsOfCode s.cfg code) 0 .display, grain := grain } := by
  cases code with
  | cmd bytes => exact absurd rfl (h bytes)
  | wire32 w | wireStart bits | wireEnd bits => exact ⟨.frame, rfl⟩
  | lineOp code | waitToken => exact ⟨.op, rfl⟩

theorem opsOfCode_lineOp (cfg : Config) (line : Line) (v : Bool) :
    opsOfCode cfg (.lineOp (encodeLineOp line v)) = [.write line v] := by
  cases line <;> cases v <;> rfl

theorem step_placeCode {s : State} {code : Code} {i : Instr} (hlit : s.cfg.SourceLiterals) (hd : decode s.cfg code = .ok i)
    (h : ∀ bytes, code ≠ .cmd bytes) : step (s.placeCode code) = exec i (s.placeCode code) := by
  cases code with
  | cmd bytes => exact absurd rfl (h bytes)
  | wire32 w => exact step_run_frame rfl rfl (frameAt_wordOps hlit hd)
  | wireStart bits =>
    simp only [decode, decodeWireStart] at hd
    split at hd <;> cases hd
    have hlt : s.cfg.startPulses < s.cfg.endPulses := by rw [hlit.startPulses, hlit.endPulses]; decide
    exact step_run_frame rfl rfl (frameAt_startOps hlt)
  | wireEnd bits =>
    simp only [decode, decodeWireEnd] at hd
    split at hd <;> cases hd
    exact step_run_frame rfl rfl (frameAt_endOps s.cfg)
  | lineOp code =>
    obtain ⟨line, v, rfl⟩ := exists_encodeLineOp code
    cases hd
    rw [decodeLineOp_encodeLineOp]
    exact step_run_op rfl rfl (by rw [opsOfCode_lineOp]; rfl)
  | waitToken =>
    cases hd
    exact step_run_op (op := .wait s.cfg.delay) rfl rfl rfl

/-- Settles O29: a placed command is the host's next item on an IDLE block; any other code is placed as the line operations
that send it, from which the transmitter reads the same instruction back. -/
theorem placedCodeRunsNext : Obligations.PlacedCodeRunsNext := by
  unfold Obligations.PlacedCodeRunsNext
  intro s code i hlit hd
  refine ⟨?_, fun h => ⟨step_placeCode hlit hd h, State.placeCode_eq_busy h⟩⟩
  rintro ⟨bytes, rfl⟩
  exact step_command rfl rfl hd

end Sys2Proof.Machine
end

section
/-! DATA at the pulses of a display (30_encoding R75): 0 in the start frame, the words' bits, 0 in the end frame. -/

namespace Sys2Proof.Machine

theorem dataAtPulses_pulsesOps (dat : Bool) (d n : Nat) (rest : List LineOp) :
    dataAtPulses dat (pulsesOps d n ++ rest) = List.replicate n dat ++ dataAtPulses dat rest := by
  induction n with
  | zero => rfl
  | succ n ih => exact congrArg (dat :: ·) ih

/-- A bit cell has one pulse, with its bit on DATA, whatever DATA was before; so has each pulse of the end frame its 0. -/
theorem dataAtPulses_bits (dat : Bool) (cfg : Config) (bits : List Bool) :
    dataAtPulses dat (bits.flatMap (bitOps cfg.delay) ++ endOps cfg) = bits ++ List.replicate cfg.endPulses false := by
  induction bits generalizing dat with
  | nil =>
    have hpulses := dataAtPulses_pulsesOps false cfg.delay cfg.endPulses []
    rwa [List.append_nil, dataAtPulses, List.append_nil] at hpulses
  | cons v bits ih => exact congrArg (v :: ·) (ih v)

theorem dataAtPulses_displayOps (dat : Bool) (cfg : Config) (ws : List WireWord) :
    dataAtPulses dat (displayOps cfg ws) =
      List.replicate cfg.startPulses false ++ (ws.flatMap wordBits ++ List.replicate cfg.endPulses false) := by
  have hwords : ws.flatMap (wordOps cfg.delay) = (ws.flatMap wordBits).flatMap (bitOps cfg.delay) := by
    simp only [List.flatMap_assoc, ← wordOps_eq_flatMap]
  rw [displayOps, List.append_assoc, hwords, ← dataAtPulses_bits false]
  exact dataAtPulses_pulsesOps false cfg.delay cfg.startPulses _

theorem wordBits_flatMap_length (ws : List WireWord) : (ws.flatMap wordBits).length = 32 * ws.length := by
  simp [List.length_flatMap, Nat.mul_comm]

/-- Pixel bit m is bit m of the words as they are sent, one after the other. -/
theorem wordBits_flatMap_getElem? (ws : List WireWord) {m : Nat} (hm : m < 32 * ws.length) :
    (ws.flatMap wordBits)[m]? = some (pixelBit ws m) := by
  induction ws generalizing m with
  | nil => simp at hm
  | cons w ws ih =>
    rw [List.flatMap_cons]
    obtain hlt | hle := Nat.lt_or_ge m 32
    · rw [List.getElem?_append_left (by simpa using hlt), wordBits_getElem? w hlt, pixelBit, Nat.div_eq_of_lt hlt,
        Nat.mod_eq_of_lt hlt]
      rfl
    · obtain ⟨k, rfl⟩ := Nat.exists_eq_add_of_le hle
      rw [List.getElem?_append_right (by simp), wordBits_length, Nat.add_sub_cancel_left,
        ih (by simp only [List.length_cons] at hm; omega)]
      simp only [pixelBit, Nat.add_div_left, Nat.add_mod_left, Nat.zero_lt_succ, List.getElem?_cons_succ]

/-- Settles O57: DATA at the pulses is START's zeros, the words' bits and END's zeros, and pulse by pulse that is the
map's. -/
theorem dataAtPulsesFollowsCellMap : Obligations.DataAtPulsesFollowsCellMap := by
  unfold Obligations.DataAtPulsesFollowsCellMap
  intro dat cfg ws hlit hws
  have hlen := wordBits_flatMap_length ws
  rw [dataAtPulses_displayOps, hlit.startPulses, hlit.endPulses]
  refine List.ext_getElem? fun k => ?_
  simp only [List.getElem?_append, List.length_replicate, List.getElem?_replicate, List.getElem?_map, hlen, hws]
  obtain hlt | hle := Nat.lt_or_ge k 324
  · rw [List.getElem?_range hlt, Option.map_some, cellMap]
    obtain hstart | hpixel | hend : k < 32 ∨ (32 ≤ k ∧ k ≤ 287) ∨ 288 ≤ k := by omega
    · rw [if_pos hstart, if_pos hstart, if_neg (by omega)]
    · rw [if_neg (by omega), if_pos (by omega), if_pos hpixel, wordBits_flatMap_getElem? ws (by omega)]
    · rw [if_neg (by omega), if_neg (by omega), if_pos (by omega), if_neg (by omega)]
  · rw [if_neg (by omega), if_neg (by omega), if_neg (by omega), List.getElem?_eq_none (l := List.range 324) (by simpa)]
    rfl

end Sys2Proof.Machine
end

section
/-! The brightness quantiser (40_pixel_model R102 to R104). 31 times a power of two is a number of the format, and a rounding
never passes one: so the scaled brightness is on the same side of 31.0 as the brightness is of 1.0. -/

namespace Sys2Proof.Machine

/-! ### The number a brightness stands for -/

theorem unpackFields_significand_lt {p eMax bias exponentField fraction m : Nat} {sign negative : Bool} {e : Int}
    (hf : fraction < 2 ^ p) (h : unpackFields (p + 1) eMax bias sign exponentField fraction = .finite negative m e) :
    m < 2 ^ (p + 1) := by
  rw [Nat.pow_succ]
  unfold unpackFields at h
  split at h
  · split at h <;> cases h
  · split at h <;> cases h
    · omega
    · rw [Nat.add_sub_cancel]
      omega

/-- The significand of a finite brightness is within the precision of its format. -/
theorem significand_lt {br : BVal} {negative : Bool} {m : Nat} {e : Int} (h : unpack br = .finite negative m e) :
    m < 2 ^ precision br.fmt := by
  cases br with
  | b32 bits => exact unpackFields_significand_lt (BitVec.isLt _) h
  | b64 bits => exact unpackFields_significand_lt (BitVec.isLt _) h

theorem twice_scale_le_two_pow_precision (fmt : BFmt) : 2 * 31 ≤ 2 ^ precision fmt := by
  cases fmt <;> decide

theorem exists_finite_of_inUnitRange {br : BVal} (h : inUnitRange br = true) :
    ∃ negative m e, unpack br = .finite negative m e := by
  unfold inUnitRange at h
  split at h
  · exact ⟨_, _, _, ‹_›⟩
  · cases h

/-- The valid range is both zeros and what is positive and at most 1, which no positive exponent leaves. -/
theorem inUnitRange_iff {br : BVal} {negative : Bool} {m : Nat} {e : Int} (h : unpack br = .finite negative m e) :
    inUnitRange br = true ↔ m = 0 ∨ negative = false ∧ e ≤ 0 ∧ m ≤ 2 ^ (-e).toNat := by
  simp only [inUnitRange, h]
  split
  · simp [*]
  · next hm =>
    split
    · simp [*]
    · obtain hneg | rfl | hpos := lt_trichotomy e 0
      · simp [*, Int.not_le.mpr hneg, hneg.le]
      · simp [*]
      · have htwo : 2 ^ 1 ≤ 2 ^ e.toNat := Nat.pow_le_pow_right (by decide) (by omega)
        have hbig : 2 ^ e.toNat ≤ m * 2 ^ e.toNat := Nat.le_mul_of_pos_left _ (Nat.pos_of_ne_zero hm)
        have hout : ¬m * 2 ^ e.toNat ≤ 1 := by omega
        simp [*, hpos.le, Int.not_le.mpr hpos]

/-! ### The scaled brightness against 31.0 -/

/-- A rounding to a multiple of 2^k does not fall below such a multiple. -/
theorem le_roundNearestEven {c n k : Nat} (h : c * 2 ^ k ≤ n) : c ≤ roundNearestEven n k :=
  ((Nat.le_div_iff_mul_le (Nat.two_pow_pos k)).mpr h).trans (roundNearestEven_bounds n k).1

/-- Nor does it rise above one. -/
theorem roundNearestEven_le {c n k : Nat} (h : n ≤ c * 2 ^ k) : roundNearestEven n k ≤ c := by
  have hup := (roundNearestEven_nearest n k).1
  by_contra hlt
  have hmul : (c + 1) * 2 ^ k ≤ roundNearestEven n k * 2 ^ k := Nat.mul_le_mul_right _ (Nat.not_le.mp hlt)
  have hpos := Nat.two_pow_pos k
  rw [Nat.succ_mul] at hmul
  omega

/-- Where 2^d bounds the significand, at most d bits go: one more would leave no more than the scale, which has room. -/
theorem roundedProduct_shift_le {scale p m d : Nat} (hscale : scale < 2 ^ p) (h : m ≤ 2 ^ d) :
    (roundedProduct scale p m).2 ≤ d := by
  by_contra hlt
  obtain ⟨j, hj⟩ := Nat.exists_eq_add_of_lt (Nat.not_le.mp hlt)
  have hfull : 2 ^ p ≤ m * scale / 2 ^ (d + j) := le_div_of_excessBits_eq_succ hj
  refine absurd (hfull.trans (Nat.div_le_of_le_mul ?_)) (Nat.not_le.mpr hscale)
  exact Nat.mul_le_mul_right scale (h.trans (Nat.pow_le_pow_right Nat.two_pos (Nat.le_add_right d j)))

theorem scale_mul_two_pow (scale : Nat) {k d : Nat} (h : k ≤ d) : scale * 2 ^ d = scale * 2 ^ (d - k) * 2 ^ k := by
  rw [Nat.mul_assoc, ← Nat.pow_add, Nat.sub_add_cancel h]

/-- The product with a significand of at most a power of two does not round above that power's. -/
theorem roundedProduct_le_scale {scale p m d : Nat} (hscale : scale < 2 ^ p) (h : m ≤ 2 ^ d) :
    (roundedProduct scale p m).1 * 2 ^ (roundedProduct scale p m).2 ≤ scale * 2 ^ d := by
  have hmul := scale_mul_two_pow scale (roundedProduct_shift_le hscale h)
  rw [hmul]
  refine Nat.mul_le_mul_right _ (roundNearestEven_le ?_)
  calc m * scale ≤ 2 ^ d * scale := Nat.mul_le_mul_right scale h
    _ = _ := (Nat.mul_comm ..).trans hmul

/-- The product with a significand of at least a power of two does not round below that power's: either the power's is a
multiple of the unit, or the unit alone is larger. -/
theorem scale_le_roundedProduct {scale p m d : Nat} (hscale : 2 * scale ≤ 2 ^ p) (hm : m < 2 ^ p) (h : 2 ^ d ≤ m) :
    scale * 2 ^ d ≤ (roundedProduct scale p m).1 * 2 ^ (roundedProduct scale p m).2 := by
  obtain hlt | hle := Nat.lt_or_ge d (roundedProduct scale p m).2
  · have hfull := roundedProduct_full hm (Nat.ne_zero_of_lt hlt)
    exact Nat.mul_le_mul (by omega) (Nat.pow_le_pow_right Nat.two_pos hlt.le)
  · have hmul := scale_mul_two_pow scale hle
    rw [hmul]
    refine Nat.mul_le_mul_right _ (le_roundNearestEven ?_)
    calc _ = 2 ^ d * scale := hmul.symm.trans (Nat.mul_comm ..)
      _ ≤ m * scale := Nat.mul_le_mul_right scale h

/-! ### Its truncation -/

theorem le_truncScaled_iff (c q a b : Nat) : c ≤ truncScaled q ((a : Int) - b) ↔ c * 2 ^ b ≤ q * 2 ^ a := by
  unfold truncScaled
  split
  · obtain ⟨j, rfl⟩ := Nat.exists_eq_add_of_le (show b ≤ a by omega)
    rw [show (((b + j : Nat) : Int) - b).toNat = j by omega, Nat.add_comm, Nat.pow_add, ← Nat.mul_assoc,
      Nat.mul_le_mul_right_iff (Nat.two_pow_pos b)]
  · obtain ⟨j, rfl⟩ := Nat.exists_eq_add_of_le (show a ≤ b by omega)
    rw [show (-((a : Int) - (a + j : Nat))).toNat = j by omega, Nat.shiftRight_eq_div_pow,
      Nat.le_div_iff_mul_le (Nat.two_pow_pos j), Nat.add_comm, Nat.pow_add, ← Nat.mul_assoc,
      Nat.mul_le_mul_right_iff (Nat.two_pow_pos a)]

/-- A level is reached when the rounded product, with the brightness's exponent, is. -/
theorem le_scaledLevel_iff {c scale m : Nat} {fmt : BFmt} {e : Int} :
    c ≤ scaledLevel scale fmt m e ↔ c * 2 ^ (-e).toNat ≤
      (roundedProduct scale (precision fmt) m).1 * 2 ^ (roundedProduct scale (precision fmt) m).2 * 2 ^ e.toNat := by
  rw [Nat.mul_assoc, ← Nat.pow_add, ← le_truncScaled_iff]
  unfold scaledLevel
  rw [show ((roundedProduct scale (precision fmt) m).2 + e.toNat : Nat) - ((-e).toNat : Int) =
    e + (roundedProduct scale (precision fmt) m).2 by omega]

theorem scaledLevel_zero (scale : Nat) (fmt : BFmt) (e : Int) : scaledLevel scale fmt 0 e = 0 := by
  have hq : (roundedProduct scale (precision fmt) 0).1 ≤ 0 := roundNearestEven_le (by simp)
  by_contra hne
  have hle := le_scaledLevel_iff.mp (Nat.pos_of_ne_zero hne)
  simp [Nat.le_zero.mp hq] at hle

/-- In the valid range the scaled brightness is at most 31.0 (40_pixel_model R102). -/
theorem scaledLevel_le_of_inUnitRange {br : BVal} {negative : Bool} {m : Nat} {e : Int}
    (h : unpack br = .finite negative m e) (hr : inUnitRange br = true) : scaledLevel 31 br.fmt m e ≤ 31 := by
  obtain rfl | ⟨-, he, hm⟩ := (inUnitRange_iff h).mp hr
  · simp [scaledLevel_zero]
  · have hscale := twice_scale_le_two_pow_precision br.fmt
    have hprod := roundedProduct_le_scale (show 31 < 2 ^ precision br.fmt by omega) hm
    by_contra hlt
    have hle := le_scaledLevel_iff.mp (Nat.not_le.mp hlt)
    rw [Int.toNat_eq_zero.mpr he, Nat.pow_zero, Nat.mul_one, Nat.succ_mul] at hle
    have hpos := Nat.two_pow_pos (-e).toNat
    omega

/-- Above the valid range it is at least 31.0 (40_pixel_model R103). -/
theorem le_scaledLevel_of_not_inUnitRange {br : BVal} {m : Nat} {e : Int} (h : unpack br = .finite false m e)
    (hr : inUnitRange br = false) : 31 ≤ scaledLevel 31 br.fmt m e := by
  obtain ⟨hne, hout⟩ : m ≠ 0 ∧ (e ≤ 0 → 2 ^ (-e).toNat < m) := by simpa [hr] using (inUnitRange_iff h).not
  have hm : 2 ^ (-e).toNat ≤ m := by
    obtain he | he := lt_or_ge 0 e
    · rw [Int.toNat_eq_zero.mpr (by omega)]
      exact Nat.pos_of_ne_zero hne
    · exact (hout he).le
  have hprod := scale_le_roundedProduct (twice_scale_le_two_pow_precision br.fmt) (significand_lt h) hm
  exact le_scaledLevel_iff.mpr (hprod.trans (Nat.le_mul_of_pos_right _ (Nat.two_pow_pos _)))

/-! ### The level -/

/-- A brightness that is not below zero and whose scaled value is below 256 gets the value's low five bits. -/
theorem quantise_eq_ofNat {cfg : Config} {br : BVal} {negative : Bool} {m level : Nat} {e : Int} (hlit : cfg.SourceLiterals)
    (h : unpack br = .finite negative m e) (hsign : m = 0 ∨ negative = false)
    (hlevel : scaledLevel 31 br.fmt m e = level) (hlt : level < 256) : quantise cfg br = BitVec.ofNat 5 level := by
  have hsign : (negative && decide (m ≠ 0)) = false := by
    obtain rfl | rfl := hsign <;> simp
  have hmask : BitVec.ofNat 5 (level &&& 31) = BitVec.ofNat 5 level := by
    apply BitVec.eq_of_toNat_eq
    simp [Nat.and_two_pow_sub_one_eq_mod level 5]
  simp only [quantise, h, hsign, hlit.brightnessScale, hlit.levelMask, hlevel, hlt]
  exact hmask

/-- 0.0 and -0.0 (40_pixel_model R102). -/
theorem quantise_zero {cfg : Config} {br : BVal} {negative : Bool} {e : Int} (hlit : cfg.SourceLiterals)
    (h : unpack br = .finite negative 0 e) : quantise cfg br = 0#5 :=
  quantise_eq_ofNat hlit h (.inl rfl) (scaledLevel_zero ..) (by decide)

/-- Settles O51: in the valid range the scaled value is at most 31, which five bits hold. -/
theorem validBrightnessLevelIsTruncation : Obligations.ValidBrightnessLevelIsTruncation := by
  unfold Obligations.ValidBrightnessLevelIsTruncation
  refine ⟨fun _ => exists_finite_of_inUnitRange, fun cfg hlit => ⟨fun br negative m e hr h => ?_, ?_⟩⟩
  · have hle := scaledLevel_le_of_inUnitRange h hr
    have hsign := ((inUnitRange_iff h).mp hr).imp_right And.left
    rw [quantise_eq_ofNat hlit h hsign rfl (by omega), BitVec.toNat_ofNat]
    exact ⟨Nat.mod_eq_of_lt (by omega), hle⟩
  · have hone32 : quantise cfg (.b32 0x3F800000#32) = 31#5 := quantise_eq_ofNat hlit rfl (.inr rfl) rfl (by decide)
    have hone64 : quantise cfg (.b64 0x3FF0000000000000#64) = 31#5 :=
      quantise_eq_ofNat hlit rfl (.inr rfl) rfl (by decide)
    exact ⟨quantise_zero hlit rfl, quantise_zero hlit rfl, hone32, quantise_zero hlit rfl, quantise_zero hlit rfl, hone64⟩

/-- Settles O52: above the valid range the scaled value is at least 31, and the level is its low five bits. -/
theorem levelWrapsAboveValidRange : Obligations.LevelWrapsAboveValidRange := by
  unfold Obligations.LevelWrapsAboveValidRange
  intro cfg br m e hlit h hr hlt
  refine ⟨le_scaledLevel_of_not_inUnitRange h hr, ?_⟩
  rw [quantise_eq_ofNat hlit h (.inr rfl) rfl hlt, BitVec.toNat_ofNat]

/-- Settles O53: each of the four takes the quantiser to its open level. -/
theorem unsettledBrightnessGetsOpenLevel : Obligations.UnsettledBrightnessGetsOpenLevel := by
  unfold Obligations.UnsettledBrightnessGetsOpenLevel
  rintro cfg br hlit (h | ⟨negative, h⟩ | ⟨m, e, hm, h⟩ | ⟨m, e, h, hlevel⟩)
  · simp only [quantise, h]
  · simp only [quantise, h]
  · simp [quantise, h, hm]
  · simp [quantise, h, hlit.brightnessScale, Nat.not_lt.mpr hlevel]

end Sys2Proof.Machine
end

section
/-! The ENCODE command (40_pixel_model R107): it answers with the encoder's word and touches nothing else. -/

namespace Sys2Proof.Machine

/-- OFF has brightness 0.0 in either format. -/
theorem quantise_off {cfg : Config} (hlit : cfg.SourceLiterals) (fmt : BFmt) : quantise cfg (off fmt).brightness = 0#5 := by
  cases fmt with
  | binary32 | binary64 => exact quantise_zero hlit rfl

/-- The wire word of OFF (40_pixel_model R101). -/
theorem encodePixel_off {cfg : Config} (hlit : cfg.SourceLiterals) (fmt : BFmt) :
    (encodePixel cfg (off fmt)).toWord = 0xE0000000#32 := by
  rw [(encoderBuildsLedFrameWord cfg (off fmt) hlit).1, quantise_off hlit]
  cases fmt <;> rfl

/-- Settles O5: ENCODE's bytes are its code, and it is a command that only responds. -/
theorem encodeCommandRespondsWord : Obligations.EncodeCommandRespondsWord := by
  unfold Obligations.EncodeCommandRespondsWord
  refine ⟨fun cfg pixel hfmt => ?_, fun pixel s hl ht => whenReady_ready _ hl ht, fun cfg hlit => ?_⟩
  · exact decode_codeOf (i := .encode pixel) (decide_eq_true hfmt)
  · rw [encodePixel_off hlit]
    rfl

end Sys2Proof.Machine
end

section
/-! The pixel buffer (41_pixel_buffer R130 to R134): which slot a write reaches, which instructions write any slot at all, and
what SET, SIZE, SNAPSHOT and CLEAR_ALL each make of a LIVE, IDLE block. -/

namespace Sys2Proof.Machine

/-! ### Slots under the source's literals -/

theorem mapped_eq {cfg : Config} (hlit : cfg.SourceLiterals) (index : Nat) : mapped cfg index = decide (index < 8) := by
  rw [mapped, hlit.nPixels]

theorem writeSlot_eq {cfg : Config} (hlit : cfg.SourceLiterals) (buf : List Pixel) (index : Nat) (pixel : Pixel) :
    writeSlot cfg buf index pixel = if index < 8 then buf.set index pixel else buf := by
  simp only [writeSlot, mapped_eq hlit, decide_eq_true_eq]

/-- A write reaches no other slot, however many slots there are (41_pixel_buffer R132). -/
theorem readSlot_writeSlot_of_ne {index j : Nat} (hj : j ≠ index) (cfg : Config) (buf : List Pixel) (pixel : Pixel) :
    readSlot (writeSlot cfg buf index pixel) j = readSlot buf j := by
  unfold writeSlot
  split
  · exact List.getElem?_set_ne hj.symm
  · rfl

theorem getElem?_encodeBuffer_words (cfg : Config) (buf : List Pixel) (k : Nat) :
    ((encodeBuffer cfg buf).map WireWord.toWord)[k]? = (readSlot buf k).map fun p => (encodePixel cfg p).toWord := by
  rw [encodeBuffer, List.map_map, List.getElem?_map]
  rfl

/-- A buffer of OFF alone encodes to eight words of marker and no light (40_pixel_model R101). -/
theorem encodeBuffer_allOff {cfg : Config} (hlit : cfg.SourceLiterals) :
    encodeBuffer cfg (allOff cfg) = List.replicate 8 (WireWord.ofWord 0xE0000000#32) := by
  rw [encodeBuffer, allOff, List.map_replicate, hlit.nPixels, ← encodePixel_off hlit cfg.bfmt, WireWord.ofWord_toWord]

/-! ### Which instructions write a slot -/

/-- SET answers a next state in two ways: it wrote and responded, or it is held and nothing changed. -/
theorem exec_set_next {index : Nat} {pixel : Pixel} {s t : State} (h : exec (.set index pixel) s = .next t) :
    (s.tx = .idle ∧ t = (s.setBuf (writeSlot s.cfg s.buf index pixel)).respond (.set (mapped s.cfg index))) ∨
      (s.tx ≠ .idle ∧ t = s) :=
  (whenReady_next h).2

/-- The other commands leave the buffer to SET and CLEAR_ALL; a line operation or a wire frame has no part in it
(41_pixel_buffer R132). -/
theorem exec_buf_of_ne {i : Instr} {s t : State} (hset : ∀ index pixel, i ≠ .set index pixel) (hclear : i ≠ .clearAll)
    (h : exec i s = .next t) : t.buf = s.buf := by
  cases i with
  | set index pixel => exact absurd rfl (hset index pixel)
  | clearAll => exact absurd rfl hclear
  | display | size | snapshot | encode pixel | reservedCmd opcode =>
    obtain ⟨-, ⟨-, rfl⟩ | ⟨-, rfl⟩⟩ := whenReady_next h <;> rfl
  | ledFrame level blue green red | startFrame | endFrame | setData v | setClk v | wait d =>
    exact (exec_sameBlock rfl h).buf

/-- Settles O2: an accepted SET writes one slot, by `readSlot_writeSlot`; the rest is `exec_buf_of_ne`. -/
theorem onlySetAndClearAllChangeSlots : Obligations.OnlySetAndClearAllChangeSlots := by
  unfold Obligations.OnlySetAndClearAllChangeSlots
  refine ⟨fun index pixel s t hlit hlen ht h j => ?_, fun i s t hset hclear h => exec_buf_of_ne hset hclear h⟩
  obtain ⟨-, rfl⟩ | ⟨hb, -⟩ := exec_set_next h
  · rw [State.respond_buf, State.setBuf_buf, readSlot_writeSlot hlen, hlit.nPixels]
  · exact absurd ht hb

/-- Settles O12: SET is a command, so it keeps the frame of one; its write reaches no other slot. -/
theorem setFrame : Obligations.SetFrame := by
  unfold Obligations.SetFrame
  intro index pixel s t h
  obtain ⟨-, hlife, hclk, hdat, hcfg, hinbox, hanswers, hattempts, hlog, hgrain, -⟩ := exec_command_frame rfl h
  obtain ⟨hslots, htx⟩ : (∀ j, j ≠ index → readSlot t.buf j = readSlot s.buf j) ∧ t.tx = s.tx := by
    obtain ⟨-, rfl⟩ | ⟨-, rfl⟩ := exec_set_next h
    · exact ⟨fun j hj => readSlot_writeSlot_of_ne hj s.cfg s.buf pixel, rfl⟩
    · exact ⟨fun _ _ => rfl, rfl⟩
  exact ⟨hslots, hlife, hclk, hdat, htx, hcfg, hinbox, hanswers, hattempts, hlog, hgrain⟩

/-! ### What each command makes of a LIVE, IDLE block -/

/-- Settles O1: the operands are read back by `decodePixel_eq_some`; on an IDLE block SET does what it says, and with the
source's literals mapped means below 8. -/
theorem setWritesMappedSlotAndReports : Obligations.SetWritesMappedSlotAndReports := by
  unfold Obligations.SetWritesMappedSlotAndReports
  refine ⟨fun cfg i3 i2 i1 i0 pixel hfmt => ?_, fun index pixel s hlit hl ht => ?_, rfl, rfl⟩
  · exact decodeCmd_of_operands (Option.map_eq_some_iff.mpr ⟨pixel, decodePixel_eq_some.mpr ⟨hfmt, rfl⟩, rfl⟩)
  · rw [← writeSlot_eq hlit, ← mapped_eq hlit]
    exact whenReady_ready _ hl ht

/-- Settles O3: the configuration's number of slots is the source's, 8. -/
theorem sizeRespondsEight : Obligations.SizeRespondsEight := by
  unfold Obligations.SizeRespondsEight
  refine ⟨fun _ => rfl, fun s hlit hl ht => ?_, rfl⟩
  rw [← hlit.nPixels]
  exact whenReady_ready _ hl ht

/-- Settles O4: the words are those of the encoded buffer. -/
theorem snapshotRespondsSlotWordsInOrder : Obligations.SnapshotRespondsSlotWordsInOrder := by
  unfold Obligations.SnapshotRespondsSlotWordsInOrder
  refine ⟨fun _ => rfl, fun s hlit hlen hl ht => ?_⟩
  refine ⟨(encodeBuffer s.cfg s.buf).map WireWord.toWord, ?_, getElem?_encodeBuffer_words s.cfg s.buf, whenReady_ready _ hl ht⟩
  rw [List.length_map, encodeBuffer_length, hlen, hlit.nPixels]

/-- Settles O7: the display is of the cleared buffer, which `encodeBuffer_allOff` encodes. -/
theorem clearAllClearsThenStartsDisplay : Obligations.ClearAllClearsThenStartsDisplay := by
  unfold Obligations.ClearAllClearsThenStartsDisplay
  refine ⟨fun _ => rfl, fun s hlit hl ht => ?_⟩
  have hbuf : List.replicate 8 (off s.cfg.bfmt) = allOff s.cfg := by rw [allOff, hlit.nPixels]
  rw [← encodeBuffer_allOff hlit, hbuf]
  exact whenReady_ready _ hl ht

end Sys2Proof.Machine
end

section
/-! The line operations as instructions and the transmitter's step (42_transmitter R160, R161, R170 to R173): each is the
model's `performOp`, whose effect is said once with a display running and once without. -/

namespace Sys2Proof.Machine

/-! ### The start of a display -/

/-- A command that starts a display, of whatever buffer it leaves, either does just that or is held. -/
theorem whenReady_startDisplay_next {s t : State} {buf : List Pixel} {origin : Origin}
    (h : whenReady s ((s.setBuf buf).startDisplay origin) = .next t) :
    t = (s.setBuf buf).startDisplay origin ∨ t = s :=
  (whenReady_next h).2.imp And.right And.right

/-- Settles O8: the words are those of the encoded buffer. -/
theorem displayLatchesEncodedBuffer : Obligations.DisplayLatchesEncodedBuffer := by
  unfold Obligations.DisplayLatchesEncodedBuffer
  refine ⟨fun _ => rfl, fun s hlit hlen hl ht => ?_⟩
  refine ⟨encodeBuffer s.cfg s.buf, ?_, fun k => List.getElem?_map, whenReady_ready _ hl ht⟩
  rw [encodeBuffer_length, hlen, hlit.nPixels]

/-- Settles O13: both start a display, DISPLAY of the buffer as it is, or are held. -/
theorem displayCommandFrame : Obligations.DisplayCommandFrame := by
  unfold Obligations.DisplayCommandFrame
  rintro i s t (rfl | rfl) h
  · obtain rfl | rfl := whenReady_startDisplay_next (buf := s.buf) h <;> simp
  · obtain rfl | rfl := whenReady_startDisplay_next (buf := allOff s.cfg) h <;> simp

/-! ### The transmitter's step -/

/-- Settles O14: the step is the LineWrite at pc, which succeeds. -/
theorem successfulLineWriteStep : Obligations.SuccessfulLineWriteStep := by
  unfold Obligations.SuccessfulLineWriteStep
  intro s seq pc origin line v hl hg ht hop ha
  exact ⟨_, step_busy_op hl hg ht hop, State.performOp_write_ok_busy line v ht ha,
    by rw [State.performOp_write_ok_busy line v ht ha]; rfl⟩

/-- Settles O15: the step is the LineWrite at pc, which fails. -/
theorem failedLineWriteStepAborts : Obligations.FailedLineWriteStepAborts := by
  unfold Obligations.FailedLineWriteStepAborts
  intro s seq pc origin line v hl hg ht hop ha
  rw [step_busy_op hl hg ht hop, State.performOp_write_fail_busy line v ht ha]

/-- Settles O16: the step is the Wait at pc. -/
theorem waitStepMovesPosition : Obligations.WaitStepMovesPosition := by
  unfold Obligations.WaitStepMovesPosition
  intro s seq pc origin d hl hg ht hop
  rw [step_busy_op hl hg ht hop, State.performOp_wait_busy d ht]

/-- Settles O17: the step is the completion, which reads nothing of the origin. -/
theorem completionStepRespondsOk : Obligations.CompletionStepRespondsOk := by
  unfold Obligations.CompletionStepRespondsOk
  exact ⟨fun s seq origin ht => ⟨s.completeDisplay, step_busy_end ht, rfl, rfl⟩, rfl⟩

/-- Settles O27: SETDATA, SETCLK and WAIT are the instructions of the three line operations. -/
theorem stepRunsLineOperationAtPosition : Obligations.StepRunsLineOperationAtPosition := by
  unfold Obligations.StepRunsLineOperationAtPosition
  exact fun s seq pc origin hg ht =>
    ⟨fun v => step_run_op (op := .write .data v) hg ht, fun v => step_run_op (op := .write .clock v) hg ht,
      fun d => step_run_op (op := .wait d) hg ht⟩

/-! ### The line operations as instructions -/

/-- Settles O18: each is its line operation, with a display running. -/
theorem lineInstructionsComplete : Obligations.LineInstructionsComplete := by
  unfold Obligations.LineInstructionsComplete
  intro s seq pc origin hl ht
  have hexec (op : LineOp) : exec (instrOfOp op) s = .next (s.performOp op) := exec_instrOfOp op hl
  refine ⟨fun v ha => ?_, fun v ha => ?_, fun v ha => ?_, fun v ha => ?_, fun d => ?_⟩
  · exact (hexec (.write .data v)).trans (congrArg _ (State.performOp_write_ok_busy .data v ht ha))
  · exact (hexec (.write .data v)).trans (congrArg _ (State.performOp_write_fail_busy .data v ht ha))
  · exact (hexec (.write .clock v)).trans (congrArg _ (State.performOp_write_ok_busy .clock v ht ha))
  · exact (hexec (.write .clock v)).trans (congrArg _ (State.performOp_write_fail_busy .clock v ht ha))
  · exact (hexec (.wait d)).trans (congrArg _ (State.performOp_wait_busy d ht))

theorem whenLive_refused {s : State} (next : State) (hl : s.life ≠ .live) : whenLive s next = .refused .notLive := by
  unfold whenLive
  split
  next h => exact absurd h hl
  next => rfl

/-- With no display running a LineWrite is its effect on the line alone (42_transmitter R160; log entry 11). -/
theorem State.performOp_write_idle {s : State} (line : Line) (v : Bool) (ht : s.tx = .idle) :
    s.performOp (.write line v) = s.lineWrite line v := by
  cases ha : s.nextAnswer with
  | true => rw [State.performOp_write_ok line v ha, State.advance, State.lineWrite_tx, ht]
  | false => rw [State.performOp_write_fail line v ha, State.abortDisplay, State.lineWrite_tx, ht]

/-- With no display running a Wait leaves its token alone (42_transmitter R161; log entry 11). -/
theorem State.performOp_wait_idle {s : State} (d : Nat) (ht : s.tx = .idle) :
    s.performOp (.wait d) = s.record (.wait d) := by
  rw [State.performOp_wait, State.advance, State.record_tx, ht]

/-- Settles O20: all of them need a LIVE block; with no display running there is no position and no command. -/
theorem lineInstructionsOutsideADisplay : Obligations.LineInstructionsOutsideADisplay := by
  unfold Obligations.LineInstructionsOutsideADisplay
  refine ⟨fun i s hc hl => ?_, fun s hl ht => ⟨fun v => ?_, fun v => ?_, fun d => ?_⟩⟩
  · rw [exec_lineOps s hc]
    exact whenLive_refused _ hl
  · exact (exec_instrOfOp (.write .data v) hl).trans (congrArg _ (State.performOp_write_idle .data v ht))
  · exact (exec_instrOfOp (.write .clock v) hl).trans (congrArg _ (State.performOp_write_idle .clock v ht))
  · exact (exec_instrOfOp (.wait d) hl).trans (congrArg _ (State.performOp_wait_idle d ht))

end Sys2Proof.Machine
end

section
/-! Runs of line operations (42_transmitter R170, R171; 20_memory R59): while the environment answers ok they are performed
one after the other, as a list by an instruction or one by one by steps, and the first that fails ends the display. -/

namespace Sys2Proof.Machine

/-! ### Answers to the LineWrites among some operations -/

/-- The environment answers ok to every LineWrite among `ops`, attempted next and in order. -/
def AllOk (s : State) (ops : List LineOp) : Prop := ∀ j < ops.countP isWrite, s.answerAt j = true

/-- The environments of the two blocks answer alike to every LineWrite among `ops`, attempted next and in order. -/
def AnsweredAlike (s t : State) (ops : List LineOp) : Prop := ∀ j < ops.countP isWrite, s.answerAt j = t.answerAt j

theorem State.opSucceeds_eq (s : State) (op : LineOp) :
    s.opSucceeds op = if isWrite op then s.answerAt 0 else true := by
  cases op with
  | write line v => exact s.answerAt_zero.symm
  | wait d => rfl

/-- A LineWrite takes one answer, a Wait none. -/
theorem State.performOp_answerAt (s : State) (op : LineOp) (k : Nat) :
    (s.performOp op).answerAt k = s.answerAt (k + if isWrite op then 1 else 0) := by
  cases op with
  | wait d => simp [State.answerAt, State.performOp_wait, isWrite]
  | write line v =>
    cases h : s.nextAnswer with
    | true => exact (State.answerAt_succ (by simp [State.performOp, h]) (by simp [State.performOp, h]) k).symm
    | false => exact (State.answerAt_succ (by simp [State.performOp, h]) (by simp [State.performOp, h]) k).symm

/-- The LineWrites among some operations are the first, where it is one, and those among the rest. -/
theorem forall_writes_cons {P : Nat → Prop} {op : LineOp} {rest : List LineOp}
    (h : ∀ j < (op :: rest).countP isWrite, P j) :
    (isWrite op = true → P 0) ∧ ∀ j < rest.countP isWrite, P (j + if isWrite op then 1 else 0) := by
  rw [List.countP_cons] at h
  exact ⟨fun hw => h 0 (by simp [hw]), fun j hj => h _ (by omega)⟩

/-- Where all are answered ok the next operation succeeds, and all are answered ok after it. -/
theorem AllOk.cons {s : State} {op : LineOp} {rest : List LineOp} (h : AllOk s (op :: rest)) :
    s.opSucceeds op = true ∧ AllOk (s.performOp op) rest := by
  obtain ⟨hfirst, hrest⟩ := forall_writes_cons h
  refine ⟨?_, fun j hj => (s.performOp_answerAt op j).trans (hrest j hj)⟩
  rw [s.opSucceeds_eq]
  split
  next hw => exact hfirst hw
  next => rfl

/-- Answers alike let the next operation succeed in both blocks or fail in both, and are alike after it. -/
theorem AnsweredAlike.cons {s t : State} {op : LineOp} {rest : List LineOp} (h : AnsweredAlike s t (op :: rest)) :
    s.opSucceeds op = t.opSucceeds op ∧ AnsweredAlike (s.performOp op) (t.performOp op) rest := by
  obtain ⟨hfirst, hrest⟩ := forall_writes_cons h
  refine ⟨?_, fun j hj => by simpa only [State.performOp_answerAt] using hrest j hj⟩
  rw [s.opSucceeds_eq, t.opSucceeds_eq]
  split
  next hw => exact hfirst hw
  next => rfl

/-! ### Operations that all succeed -/

theorem State.performOps_append {s : State} {ops : List LineOp} (rest : List LineOp) (h : AllOk s ops) :
    s.performOps (ops ++ rest) = (s.performOps ops).performOps rest := by
  induction ops generalizing s with
  | nil => rfl
  | cons op ops ih =>
    obtain ⟨hok, hrest⟩ := h.cons
    rw [List.cons_append, State.performOps_cons_ok _ hok, State.performOps_cons_ok _ hok, ih hrest]

/-- Operations that stand next in the sequence and all succeed take one step each. -/
theorem runFor_performOps_ok {s : State} {seq : List LineOp} {pc : Nat} {origin : Origin} {ops : List LineOp}
    (hl : s.life = .live) (hg : s.grain = .op) (ht : s.tx = .busy seq pc origin) (hops : ops <+: seq.drop pc)
    (h : AllOk s ops) : runFor ops.length s = .next (s.performOps ops) := by
  induction ops generalizing s pc with
  | nil => rfl
  | cons op rest ih =>
    obtain ⟨after, hdrop⟩ := hops
    have hop : seq[pc]? = some op := by rw [← List.head?_drop, ← hdrop]; rfl
    have hrest : rest <+: seq.drop (pc + 1) := ⟨after, by rw [← List.tail_drop, ← hdrop]; rfl⟩
    obtain ⟨hok, hrestOk⟩ := h.cons
    have hblock := s.performOp_sameBlock op
    have htx := State.performOp_tx op ht
    rw [hok, if_pos rfl] at htx
    rw [State.performOps_cons_ok rest hok, List.length_cons, runFor_succ, step_busy_op hl hg ht hop]
    exact ih (hblock.life.trans hl) (hblock.grain.trans hg) htx hrest hrestOk

/-! ### Operations up to the first that fails -/

/-- The later answers of a block that has used the first `n` (42_transmitter R160; log entry 2). -/
theorem State.answerAt_drop {s t : State} {n : Nat} (ha : t.answers = s.answers.drop n) (hn : t.attempts = s.attempts + n)
    (k : Nat) : t.answerAt k = s.answerAt (n + k) := by
  simp only [State.answerAt, ha, hn, List.getElem?_drop, Nat.add_assoc]

/-- The abort of R171 in a list of operations: those before the failing LineWrite are done, those after it are not
attempted. -/
theorem State.performOps_fail {s : State} {seq : List LineOp} {pc : Nat} {origin : Origin} {ops : List LineOp} {line : Line}
    {v : Bool} (rest : List LineOp) (ht : s.tx = .busy seq pc origin) (h : AllOk s ops)
    (hfail : s.answerAt (ops.countP isWrite) = false) :
    ∃ t, s.performOps (ops ++ .write line v :: rest) = t ∧ t.tx = .idle ∧
      t.resp = some (.lineWriteFailed (pc + ops.length) line) ∧ t.latch line = .unknown ∧
      t.attempts = s.attempts + (ops.countP isWrite + 1) ∧
      t.log = s.log ++ ops.map okToken ++ [.write line v false] := by
  have hok := State.performOps_ok ops s seq pc origin ht h
  have hnext : (s.performOps ops).nextAnswer = false := by
    rw [← State.answerAt_zero, State.answerAt_drop (s := s) (n := ops.countP isWrite) (by rw [hok]) (by rw [hok])]
    exact hfail
  have htx : (s.performOps ops).tx = .busy seq (pc + ops.length) origin := by rw [hok]
  refine ⟨_, rfl, ?_⟩
  rw [State.performOps_append _ h, State.performOps_cons_fail (op := .write line v) rest hnext,
    State.performOp_write_fail_busy line v htx hnext, hok]
  exact ⟨rfl, rfl, by cases line <;> rfl, rfl, rfl⟩

end Sys2Proof.Machine
end

section
/-! The wire frames as instructions (42_transmitter R163 to R167, R171): what START, WORD and END leave on the lines and in
the trace, and where the first failing LineWrite ends them. -/

namespace Sys2Proof.Machine

/-! ### Pulses after DATA 0: START and END -/

/-- The tokens of n pulses that succeed (30_encoding R83). -/
theorem pulsesOps_okTokens (d n : Nat) : (pulsesOps d n).map okToken =
    (List.replicate n [.write .clock true true, .wait d, .write .clock false true, .wait d]).flatten := by
  induction n with
  | zero => rfl
  | succ n ih => rw [pulsesOps, List.map_append, ih]; rfl

/-- DATA 0 and n + 1 pulses, all answered ok, leave both lines low. -/
theorem State.performOps_pulses {s : State} {seq : List LineOp} {pc : Nat} {origin : Origin} (d n : Nat)
    (ht : s.tx = .busy seq pc origin) (h : ∀ j < 2 * (n + 1) + 1, s.answerAt j = true) :
    s.performOps (.write .data false :: pulsesOps d (n + 1)) = { s with
      clk := .l0, dat := .l0, tx := .busy seq (pc + (4 * (n + 1) + 1)) origin
      answers := s.answers.drop (2 * (n + 1) + 1), attempts := s.attempts + (2 * (n + 1) + 1)
      log := s.log ++ .write .data false true :: (List.replicate (n + 1)
        [.write .clock true true, .wait d, .write .clock false true, .wait d]).flatten } := by
  obtain ⟨hclk, hdat⟩ := pulsesOps_last d n
  have hcount : (LineOp.write .data false :: pulsesOps d (n + 1)).countP isWrite = 2 * (n + 1) + 1 := by
    rw [List.countP_cons_of_pos rfl, pulsesOps_writes]
  rw [State.performOps_ok _ s seq pc origin ht (by rwa [hcount]), hcount, lastWrite_cons, lastWrite_cons, hclk, hdat,
    List.length_cons, pulsesOps_length, List.map_cons, pulsesOps_okTokens]
  rfl

/-- Settles O21: START is DATA 0 and 32 pulses. -/
theorem startFrameSendsThirtyTwoPulses : Obligations.StartFrameSendsThirtyTwoPulses := by
  unfold Obligations.StartFrameSendsThirtyTwoPulses
  intro s seq pc origin hlit hl ht h
  have hops : startOps s.cfg = .write .data false :: pulsesOps s.cfg.delay (31 + 1) := by rw [startOps, hlit.startPulses]
  rw [exec_lineOps s rfl, whenLive_live _ hl, lineOps, hops, State.performOps_pulses _ 31 ht h]

/-- Settles O23: END is DATA 0 and 36 pulses. -/
theorem endFrameSendsThirtySixPulses : Obligations.EndFrameSendsThirtySixPulses := by
  unfold Obligations.EndFrameSendsThirtySixPulses
  intro s seq pc origin hlit hl ht h
  have hops : endOps s.cfg = .write .data false :: pulsesOps s.cfg.delay (35 + 1) := by rw [endOps, hlit.endPulses]
  rw [exec_lineOps s rfl, whenLive_live _ hl, lineOps, hops, State.performOps_pulses _ 35 ht h]

/-! ### Bit cells: WORD -/

/-- The wire word of an LED frame's fields under the source's literals (30_encoding R71). -/
theorem ledFrameWord_toWord {cfg : Config} (hlit : cfg.SourceLiterals) (level : BrightLevel) (blue green red : Byte) :
    (ledFrameWord cfg level blue green red).toWord = 0b111#3 ++ level ++ blue ++ green ++ red := by
  simp only [ledFrameWord, WireWord.toWord, brightnessByte_eq hlit]
  rfl

/-- The bits of a word as they are sent, from bit 31 down (42_transmitter R166). -/
theorem wordBits_eq_map_range (w : WireWord) : wordBits w = (List.range 32).map fun k => w.toWord.getLsbD (31 - k) := by
  refine List.ext_getElem? fun k => ?_
  rw [List.getElem?_map]
  obtain hlt | hle := Nat.lt_or_ge k 32
  · rw [wordBits_getElem? w hlt, List.getElem?_range hlt]
    rfl
  · rw [List.getElem?_eq_none (by simpa), List.getElem?_eq_none (by simpa)]
    rfl

/-- The tokens of a word that succeeds: for each bit the DATA write and one pulse. -/
theorem wordOps_okTokens (d : Nat) (w : WireWord) : (wordOps d w).map okToken = (List.range 32).flatMap fun k =>
    [.write .data (w.toWord.getLsbD (31 - k)) true,
      .write .clock true true, .wait d, .write .clock false true, .wait d] := by
  rw [wordOps_eq_flatMap, wordBits_eq_map_range, List.map_flatMap, List.flatMap_map]
  rfl

/-- Settles O22: WORD is 32 bit cells. -/
theorem ledFrameSendsThirtyTwoBits : Obligations.LedFrameSendsThirtyTwoBits := by
  unfold Obligations.LedFrameSendsThirtyTwoBits
  intro s seq pc origin level blue green red hlit hl ht h
  obtain ⟨hclk, hdat⟩ := wordOps_last s.cfg.delay (ledFrameWord s.cfg level blue green red)
  rw [exec_lineOps s rfl, whenLive_live _ hl, lineOps,
    State.performOps_ok _ s seq pc origin ht (by rwa [wordOps_writes]), wordOps_writes, wordOps_length, wordOps_okTokens,
    ledFrameWord_toWord hlit, hclk, hdat]
  rfl

/-! ### Every wire frame -/

/-- Settles O24: the operations before the failing one are performed, then it aborts the display. -/
theorem wireFrameStopsAtFirstFailure : Obligations.WireFrameStopsAtFirstFailure := by
  unfold Obligations.WireFrameStopsAtFirstFailure
  rintro i ops s seq pc k n origin line v hi hl ht hop rfl hok hfail
  have hexec : exec i s = .next (s.performOps ops) := by
    obtain ⟨rfl, rfl⟩ | ⟨rfl, rfl⟩ | ⟨level, blue, green, red, rfl, rfl⟩ := hi <;> exact whenLive_live _ hl
  obtain ⟨hlt, hget⟩ := List.getElem?_eq_some_iff.mp hop
  have hsplit : ops.take k ++ .write line v :: ops.drop (k + 1) = ops := by
    rw [← hget, ← List.drop_eq_getElem_cons hlt, List.take_append_drop]
  obtain ⟨t, hrun, htx, hresp, hlatch, hattempts, hlog⟩ := State.performOps_fail (ops.drop (k + 1)) ht hok hfail
  rw [hsplit] at hrun
  rw [List.length_take_of_le hlt.le] at hresp
  exact ⟨t, hrun ▸ hexec, htx, hresp, hlatch, hattempts, hlog, hrun ▸ s.performOps_sameBlock ops⟩

/-- The token of a line operation with the answer it gets (30_encoding R83). -/
def State.tokenOf (s : State) : LineOp → Token
  | .write line v => .write line v s.nextAnswer
  | .wait d => .wait d

theorem State.performOp_log (s : State) (op : LineOp) : (s.performOp op).log = s.log ++ [s.tokenOf op] := by
  cases op with
  | wait d => simp [State.performOp_wait, State.tokenOf]
  | write line v =>
    cases h : s.nextAnswer with
    | true => simp [State.performOp_write_ok line v h, State.tokenOf]
    | false => simp [State.performOp_write_fail line v h, State.tokenOf]

/-- Line operations only add to what is recorded (log entry 9). -/
theorem State.performOps_log_prefix (ops : List LineOp) (s : State) : s.log <+: (s.performOps ops).log := by
  induction ops generalizing s with
  | nil => exact List.prefix_rfl
  | cons op rest ih =>
    have hone : s.log <+: (s.performOp op).log := ⟨_, (s.performOp_log op).symm⟩
    unfold State.performOps
    split
    · exact hone.trans (ih _)
    · exact hone

/-- Settles O25: a wire frame performs line operations, whatever they are answered. -/
theorem wireFrameFrame : Obligations.WireFrameFrame := by
  unfold Obligations.WireFrameFrame
  intro i s t hi h
  have hc : i.isCommand = false := by obtain rfl | rfl | ⟨level, blue, green, red, rfl⟩ := hi <;> rfl
  obtain ⟨-, ops, rfl⟩ := exec_line_next hc h
  obtain ⟨toks, hlog⟩ := s.performOps_log_prefix ops
  exact ⟨s.performOps_sameBlock ops, toks, hlog.symm⟩

end Sys2Proof.Machine
end

section
/-! The display sequence operation by operation (42_transmitter R174, R175, R178): where each stands, how many there are of
each kind, and what was last written before each; and the display that meets no failure (R173). -/

namespace Sys2Proof.Machine

/-! ### Positions -/

theorem pulseOps_getElem? (d : Nat) {j : Nat} (hj : j < 4) : (pulseOps d)[j]? = some (pulseOpAt d j) := by
  interval_cases j <;> rfl

theorem pulsesOps_getElem? (d : Nat) {n q : Nat} (hq : q < 4 * n) :
    (pulsesOps d n)[q]? = some (pulseOpAt d (q % 4)) := by
  induction n generalizing q with
  | zero => omega
  | succ n ih =>
    rw [pulsesOps]
    obtain hlt | hle := Nat.lt_or_ge q 4
    · rw [List.getElem?_append_left (by simpa using hlt), pulseOps_getElem? d hlt, Nat.mod_eq_of_lt hlt]
    · obtain ⟨r, rfl⟩ := Nat.exists_eq_add_of_le hle
      rw [List.getElem?_append_right (by simp), pulseOps_length, Nat.add_sub_cancel_left, ih (by omega), Nat.add_mod_left]

/-- A bit cell is the DATA write of its bit, then one pulse (42_transmitter R164). -/
theorem bitCells_getElem? (d : Nat) (bits : List Bool) {q : Nat} (hq : q < 5 * bits.length) :
    (bits.flatMap (bitOps d))[q]? =
      if q % 5 = 0 then bits[q / 5]?.map (LineOp.write .data) else some (pulseOpAt d (q % 5 - 1)) := by
  induction bits generalizing q with
  | nil => simp at hq
  | cons v bits ih =>
    rw [List.flatMap_cons]
    obtain hlt | hle := Nat.lt_or_ge q 5
    · rw [List.getElem?_append_left (by simpa using hlt)]
      interval_cases q <;> rfl
    · obtain ⟨r, rfl⟩ := Nat.exists_eq_add_of_le hle
      rw [List.getElem?_append_right (by simp), bitOps_length, Nat.add_sub_cancel_left,
        ih (by simp only [List.length_cons] at hq; omega), Nat.add_mod_left, Nat.add_div_left r (by decide),
        List.getElem?_cons_succ]

/-- The words of a display, one bit cell after the other (42_transmitter R165, R166). -/
theorem words_eq_bitCells (d : Nat) (ws : List WireWord) :
    ws.flatMap (wordOps d) = (ws.flatMap wordBits).flatMap (bitOps d) := by
  simp only [List.flatMap_assoc, ← wordOps_eq_flatMap]

theorem words_getElem? (d : Nat) (ws : List WireWord) {q : Nat} (hq : q < 160 * ws.length) :
    (ws.flatMap (wordOps d))[q]? =
      if q % 5 = 0 then some (.write .data (pixelBit ws (q / 5))) else some (pulseOpAt d (q % 5 - 1)) := by
  have hlen := wordBits_flatMap_length ws
  rw [words_eq_bitCells, bitCells_getElem? d _ (by omega), wordBits_flatMap_getElem? ws (by omega)]
  rfl

/-- DATA 0 and then pulses, the shape of START and END (42_transmitter R163, R167). -/
theorem pulseFrame_getElem? (d : Nat) {n q : Nat} (hq : q < 1 + 4 * n) :
    (LineOp.write .data false :: pulsesOps d n)[q]? =
      if q = 0 then some (.write .data false) else some (pulseOpAt d ((q - 1) % 4)) := by
  cases q with
  | zero => rfl
  | succ q => rw [List.getElem?_cons_succ, pulsesOps_getElem? d (by omega)]; rfl

/-- Settles O55: the table's ranges are START, the words and END. -/
theorem sequencePositions : Obligations.SequencePositions := by
  unfold Obligations.SequencePositions
  intro cfg ws q hlit hws
  have hstart : (startOps cfg).length = 129 := by rw [startOps_length, hlit.startPulses]
  have hwords : (ws.flatMap (wordOps cfg.delay)).length = 1280 := by rw [words_length, hws]
  have hend : (endOps cfg).length = 145 := by rw [endOps_length, hlit.endPulses]
  rw [displayOps, positionMap, List.append_assoc]
  obtain hq | hq | hq | hq : q < 129 ∨ (129 ≤ q ∧ q < 1409) ∨ (1409 ≤ q ∧ q < 1554) ∨ 1554 ≤ q := by omega
  · rw [List.getElem?_append_left (by omega), startOps,
      pulseFrame_getElem? _ (by rw [hlit.startPulses]; exact hq), if_pos hq]
  · rw [List.getElem?_append_right (by omega), List.getElem?_append_left (by omega), hstart, words_getElem? _ _ (by omega),
      if_neg (show ¬q = 0 by omega), if_neg (show ¬q < 129 by omega), if_pos hq.2]
  · rw [List.getElem?_append_right (by omega), List.getElem?_append_right (by omega), hstart, hwords, endOps,
      pulseFrame_getElem? _ (by rw [hlit.endPulses]; omega), if_neg (show ¬q = 0 by omega),
      if_neg (show ¬q < 129 by omega), if_neg (show ¬q < 1409 by omega), if_pos hq.2]
    simp only [show q - 129 - 1280 = q - 1409 by omega, show q - 1409 - 1 = q - 1410 by omega,
      show q - 1409 = 0 ↔ q = 1409 by omega]
  · rw [List.getElem?_eq_none (by simp only [List.length_append]; omega), if_neg (by omega), if_neg (by omega),
      if_neg (by omega), if_neg (by omega), if_neg (by omega)]

/-! ### Counts -/

theorem pulsesOps_countP (p : LineOp → Bool) (d n : Nat) : (pulsesOps d n).countP p = n * (pulseOps d).countP p := by
  induction n with
  | zero => simp [pulsesOps]
  | succ n ih => rw [pulsesOps, List.countP_append, ih]; ring

/-- Operations of a kind that has as many in a bit cell of a 0 as in one of a 1. -/
theorem displayOps_countP {p : LineOp → Bool} {cfg : Config} {c : Nat} (hbit : ∀ v, (bitOps cfg.delay v).countP p = c)
    (ws : List WireWord) : (displayOps cfg ws).countP p =
      2 * [LineOp.write .data false].countP p + (cfg.startPulses + cfg.endPulses) * (pulseOps cfg.delay).countP p +
        32 * ws.length * c := by
  have hcells (bits : List Bool) : (bits.flatMap (bitOps cfg.delay)).countP p = bits.length * c := by
    induction bits with
    | nil => simp
    | cons v bits ih => rw [List.flatMap_cons, List.countP_append, hbit, ih, List.length_cons]; ring
  have hframe (n : Nat) : (LineOp.write .data false :: pulsesOps cfg.delay n).countP p =
      [LineOp.write .data false].countP p + n * (pulseOps cfg.delay).countP p := by
    rw [← pulsesOps_countP, ← List.countP_append]; rfl
  rw [displayOps, List.countP_append, List.countP_append, startOps, endOps, hframe, hframe, words_eq_bitCells, hcells,
    wordBits_flatMap_length]
  ring

/-- A DATA write is a write of 1 or of 0, never both. -/
theorem dataWrites_countP (ops : List LineOp) :
    ops.countP (isWriteOf .data true) + ops.countP (isWriteOf .data false) =
      ops.countP fun op => isWriteOf .data true op || isWriteOf .data false op := by
  induction ops with
  | nil => rfl
  | cons op rest ih =>
    simp only [List.countP_cons, ← ih]
    obtain ⟨line, v⟩ | d := op
    · cases line <;> cases v <;> simp [isWriteOf] <;> omega
    · simp [isWriteOf]

/-- Settles O56: each kind is counted in DATA 0, in a PULSE and in a bit cell. -/
theorem sequenceCounts : Obligations.SequenceCounts := by
  unfold Obligations.SequenceCounts
  intro cfg ws hlit hws
  have hclock (v : Bool) : (displayOps cfg ws).countP (isWriteOf .clock v) = 324 := by
    rw [displayOps_countP (c := 1) (by intro b; cases b <;> cases v <;> rfl), hlit.startPulses, hlit.endPulses, hws]
    cases v <;> rfl
  refine ⟨?_, hclock true, ?_, hclock true, hclock false, ?_, ?_⟩
  · rw [displayOps_length, hlit.startPulses, hlit.endPulses, hws]
  · rw [displayOps_countP (c := 3) (fun _ => rfl), hlit.startPulses, hlit.endPulses, hws]
    rfl
  · rw [dataWrites_countP, displayOps_countP (c := 1) (by intro b; cases b <;> rfl), hlit.startPulses, hlit.endPulses, hws]
    rfl
  · rw [displayOps_countP (c := 2) (fun _ => by simp [bitOps, pulseOps]), hlit.startPulses,
      hlit.endPulses, hws]
    simp [pulseOps]

/-! ### What was written before -/

theorem lastWrite_ne_none {line : Line} {v : Bool} {ops : List LineOp} (h : LineOp.write line v ∈ ops) :
    lastWrite line ops ≠ none := by
  obtain ⟨before, after, rfl⟩ := List.append_of_mem h
  rw [lastWrite_append, lastWrite_cons]
  simp

/-- A display begins with a DATA write and then a clock write (42_transmitter R163). -/
theorem displayOps_eq_cons {cfg : Config} (hlit : cfg.SourceLiterals) (ws : List WireWord) :
    ∃ rest, displayOps cfg ws = .write .data false :: .write .clock true :: rest :=
  ⟨_, by rw [displayOps, startOps, hlit.startPulses]; rfl⟩

/-- Settles O58: the clock is not high at any DATA write, and after the first two operations it has been driven; the first
operation is a DATA write. -/
theorem dataChangesOnlyWithClockLow : Obligations.DataChangesOnlyWithClockLow := by
  unfold Obligations.DataChangesOnlyWithClockLow
  intro cfg ws q hlit _
  have hlow := (displayOps_clockRestsLow cfg ws).data q
  obtain ⟨rest, hrest⟩ := displayOps_eq_cons hlit ws
  rw [hrest] at hlow ⊢
  refine ⟨fun v hpos hop => ?_, fun v hop => ?_⟩
  · have hdriven : lastWrite .clock ((.write .data false :: .write .clock true :: rest).take q) ≠ none := by
      match q, hpos, hop with
      | r + 2, _, _ => exact lastWrite_ne_none (v := true) (by simp)
    obtain ⟨last, hlast⟩ := Option.ne_none_iff_exists'.mp hdriven
    have hne := hlow v hop
    rw [hlast] at hne ⊢
    cases last with
    | true => exact absurd rfl hne
    | false => rfl
  · cases q with
    | zero => cases hop
    | succ r => exact lastWrite_ne_none (v := false) (by simp)

/-! ### A display that meets no failure -/

/-- A display leaves both lines low (42_transmitter R177). -/
theorem displayOps_last {cfg : Config} (hlit : cfg.SourceLiterals) (ws : List WireWord) :
    lastWrite .clock (displayOps cfg ws) = some false ∧ lastWrite .data (displayOps cfg ws) = some false := by
  obtain ⟨hclk, hdat⟩ := pulsesOps_last cfg.delay 35
  have hend (line : Line) : lastWrite line (endOps cfg) = some false := by
    rw [endOps, hlit.endPulses, lastWrite_cons]
    cases line with
    | clock => rw [hclk]; rfl
    | data => rw [hdat]; rfl
  simp only [displayOps, lastWrite_append _ (_ ++ _), hend, Option.some_or, and_self]

/-- Settles O42: 1554 steps perform the sequence, and one completes. -/
theorem undisturbedDisplayCompletes : Obligations.UndisturbedDisplayCompletes := by
  unfold Obligations.UndisturbedDisplayCompletes
  intro s ws origin hlit hl hg hws ht h
  obtain ⟨hlen, -, hwrites, -⟩ := sequenceCounts s.cfg ws hlit hws
  obtain ⟨hclk, hdat⟩ := displayOps_last hlit ws
  rw [← hwrites] at h
  have hrun := runFor_performOps_ok (ops := displayOps s.cfg ws) hl hg ht List.prefix_rfl h
  have hdone := State.performOps_ok _ s _ 0 origin ht h
  rw [hlen] at hrun
  have htx : (s.performOps (displayOps s.cfg ws)).tx =
      .busy (displayOps s.cfg ws) (displayOps s.cfg ws).length origin := by
    rw [hdone, Nat.zero_add]
  rw [runFor_add 1 hrun, runFor_succ, step_busy_end htx, hdone, hclk, hdat, hwrites]
  rfl

end Sys2Proof.Machine
end

section
/-! What a display does depends on its sequence and on the environment's answers alone (42_transmitter R176, R181): two
blocks that run one sequence from one position, answered alike, do the same. -/

namespace Sys2Proof.Machine

/-! ### A block that waits -/

theorem hostMove_of_nil {s : State} (hin : s.inbox = []) : hostMove s = .other (.next s) := by
  simp only [hostMove, hin]

theorem runFor_waits {s : State} (ht : s.tx = .idle) (hin : s.inbox = []) (n : Nat) : runFor n s = .next s := by
  have hstep : step s = .next s := step_of_other ((nextMove_idle ht).trans (hostMove_of_nil hin))
  induction n with
  | zero => rfl
  | succ n ih => rw [runFor_succ, hstep]; exact ih

/-! ### Two displays side by side -/

/-- Both blocks are LIVE at the spec's grain and run the same sequence at the same position, and their environments answer
alike to what is left of it. -/
structure RunAlike (seq : List LineOp) (pc : Nat) (s t : State) : Prop where
  live : s.life = .live ∧ t.life = .live
  opGrain : s.grain = .op ∧ t.grain = .op
  busy : ∃ o o', s.tx = .busy seq pc o ∧ t.tx = .busy seq pc o'
  within : pc ≤ seq.length
  answers : AnsweredAlike s t (seq.drop pc)

/-- Both have ended with the same response. -/
structure EndedAlike (s t : State) : Prop where
  idle : s.tx = .idle ∧ t.tx = .idle
  resp : s.resp = t.resp

/-- The two have recorded the same since `s` and `t`. -/
def RecordedAlike (s t s' t' : State) : Prop := ∃ toks, s'.log = s.log ++ toks ∧ t'.log = t.log ++ toks

theorem RecordedAlike.refl (s t : State) : RecordedAlike s t s t := ⟨[], by simp, by simp⟩

theorem RecordedAlike.trans {s t s' t' s'' t'' : State} (h : RecordedAlike s t s' t') (k : RecordedAlike s' t' s'' t'') :
    RecordedAlike s t s'' t'' := by
  obtain ⟨toks, hs, ht⟩ := h
  obtain ⟨more, hs', ht'⟩ := k
  exact ⟨toks ++ more, by rw [hs', hs, List.append_assoc], by rw [ht', ht, List.append_assoc]⟩

theorem State.tokenOf_congr {s t : State} {op : LineOp} (h : s.opSucceeds op = t.opSucceeds op) :
    s.tokenOf op = t.tokenOf op := by
  cases op with
  | wait d => rfl
  | write line v => exact congrArg (Token.write line v) h

theorem State.performOp_fail_resp {s : State} {seq : List LineOp} {pc : Nat} {origin : Origin} {line : Line} {v : Bool}
    (ht : s.tx = .busy seq pc origin) (h : s.opSucceeds (.write line v) = false) :
    (s.performOp (.write line v)).resp = some (.lineWriteFailed pc line) := by
  rw [State.performOp_write_fail_busy line v ht h]

/-- One step of both: they record alike, and run on or end alike. -/
theorem RunAlike.oneStep {seq : List LineOp} {pc : Nat} {s t : State} (h : RunAlike seq pc s t) :
    ∃ s' t', step s = .next s' ∧ step t = .next t' ∧ SameBlock s s' ∧ SameBlock t t' ∧ RecordedAlike s t s' t' ∧
      (RunAlike seq (pc + 1) s' t' ∨ EndedAlike s' t') := by
  obtain ⟨⟨hls, hlt⟩, ⟨hgs, hgt⟩, ⟨o, o', hts, htt⟩, hwithin, hans⟩ := h
  obtain rfl | hpc := Nat.eq_or_lt_of_le hwithin
  · exact ⟨_, _, step_busy_end hts, step_busy_end htt, step_busy_sameBlock hts (step_busy_end hts),
      step_busy_sameBlock htt (step_busy_end htt), .refl s t, .inr ⟨⟨rfl, rfl⟩, rfl⟩⟩
  · rw [List.drop_eq_getElem_cons hpc] at hans
    have hop : seq[pc]? = some seq[pc] := List.getElem?_eq_getElem hpc
    generalize seq[pc] = op at hans hop
    obtain ⟨hok, hrest⟩ := hans.cons
    have hbs := s.performOp_sameBlock op
    have hbt := t.performOp_sameBlock op
    refine ⟨_, _, step_busy_op hls hgs hts hop, step_busy_op hlt hgt htt hop, hbs, hbt,
      ⟨[s.tokenOf op], s.performOp_log op, by rw [State.tokenOf_congr hok]; exact t.performOp_log op⟩, ?_⟩
    have hs := State.performOp_tx op hts
    have ht := State.performOp_tx op htt
    rw [← hok] at ht
    cases hsucc : s.opSucceeds op with
    | true =>
      rw [hsucc, if_pos rfl] at hs ht
      exact .inl ⟨⟨hbs.life.trans hls, hbt.life.trans hlt⟩, ⟨hbs.grain.trans hgs, hbt.grain.trans hgt⟩,
        ⟨o, o', hs, ht⟩, hpc, hrest⟩
    | false =>
      rw [hsucc, if_neg Bool.false_ne_true] at hs ht
      cases op with
      | wait d => cases hsucc
      | write line v =>
        exact .inr ⟨⟨hs, ht⟩, (State.performOp_fail_resp hts hsucc).trans
          (State.performOp_fail_resp htt (hok ▸ hsucc)).symm⟩

/-- Any number of steps up to the end, or past it where neither host presents anything. -/
theorem RunAlike.manySteps {seq : List LineOp} {pc : Nat} {s t : State} {n : Nat} (h : RunAlike seq pc s t)
    (hn : (∀ m < n, ∃ u, runFor m s = .next u ∧ u.tx ≠ .idle) ∨ (s.inbox = [] ∧ t.inbox = [])) :
    ∃ s' t', runFor n s = .next s' ∧ runFor n t = .next t' ∧ RecordedAlike s t s' t' ∧
      ((∃ pc', RunAlike seq pc' s' t') ∨ EndedAlike s' t') := by
  induction n generalizing s t pc with
  | zero => exact ⟨s, t, rfl, rfl, .refl s t, .inl ⟨pc, h⟩⟩
  | succ n ih =>
    obtain ⟨s₁, t₁, hs, ht, hbs, hbt, hrec, hnext⟩ := h.oneStep
    have hruns (m : Nat) : runFor (m + 1) s = runFor m s₁ := by rw [runFor_succ, hs]
    have hrunt (m : Nat) : runFor (m + 1) t = runFor m t₁ := by rw [runFor_succ, ht]
    have hn' : (∀ m < n, ∃ u, runFor m s₁ = .next u ∧ u.tx ≠ .idle) ∨ (s₁.inbox = [] ∧ t₁.inbox = []) :=
      hn.imp (fun hbusy m hm => hruns m ▸ hbusy (m + 1) (Nat.succ_lt_succ hm))
        fun ⟨his, hit⟩ => ⟨hbs.inbox.trans his, hbt.inbox.trans hit⟩
    rw [hruns, hrunt]
    obtain hrun | hend := hnext
    · obtain ⟨s', t', hs', ht', hrec', h'⟩ := ih hrun hn'
      exact ⟨s', t', hs', ht', hrec.trans hrec', h'⟩
    · obtain ⟨his, hit⟩ := hend.idle
      obtain rfl | hpos := Nat.eq_zero_or_pos n
      · exact ⟨s₁, t₁, rfl, rfl, hrec, .inr hend⟩
      · obtain hbusy | ⟨hins, hint⟩ := hn'
        · obtain ⟨u, hu, hne⟩ := hbusy 0 hpos
          cases hu
          exact absurd his hne
        · exact ⟨s₁, t₁, runFor_waits his hins n, runFor_waits hit hint n, hrec, .inr hend⟩

/-- Settles O46: the two displays are of one sequence, since it is made of the words, D and the pulse counts. -/
theorem displayIgnoresHistory : Obligations.DisplayIgnoresHistory := by
  unfold Obligations.DisplayIgnoresHistory
  intro n s t o o' hls hlt hgs hgt hbuf hdelay hstart hend hans hn
  have hseq : displayOps s.cfg (encodeBuffer s.cfg s.buf) = displayOps t.cfg (encodeBuffer t.cfg t.buf) := by
    simp only [displayOps, startOps, endOps, hbuf, hdelay, hstart, hend]
  have hstarted : RunAlike (displayOps s.cfg (encodeBuffer s.cfg s.buf)) 0 (s.startDisplay o) (t.startDisplay o') :=
    ⟨⟨hls, hlt⟩, ⟨hgs, hgt⟩, ⟨o, o', rfl, by rw [hseq]; rfl⟩, Nat.zero_le _, hans⟩
  obtain ⟨s', t', hs', ht', ⟨toks, hslog, htlog⟩, h⟩ := hstarted.manySteps hn
  refine ⟨s', t', toks, hs', ht', hslog, htlog, ?_⟩
  obtain ⟨pc, -, -, ⟨p, p', hs, ht⟩, -, -⟩ | ⟨⟨hs, ht⟩, hresp⟩ := h
  · exact ⟨by simp only [State.busy, hs, ht], fun hidle => absurd (hs.symm.trans hidle) nofun⟩
  · exact ⟨by simp only [State.busy, hs, ht], fun _ => hresp⟩

end Sys2Proof.Machine
end

section
/-! The counter and shift-register form (42_transmitter R180) against the sequence: its steps attempt the operations of SEQ
in order, its position is the index of the next one, and so a block that it runs ends as one that the machine runs. -/

namespace Sys2Proof.Machine

/-! ### Paths of the form -/

/-- In `n` steps from one place to another, each operation succeeding, the form attempts `ops`; its position counts them. -/
inductive Counter.Path (cfg : Config) (ws : List WireWord) : Counter → Nat → List LineOp → Counter → Prop where
  | stay (c : Counter) : Path cfg ws c 0 [] c
  | attempt {c c' e : Counter} {n : Nat} {op : LineOp} {ops : List LineOp} (hnext : c.next cfg ws = (some op, c'))
      (hpos : c'.position cfg = c.position cfg + 1) (rest : Path cfg ws c' n ops e) : Path cfg ws c (n + 1) (op :: ops) e
  | load {c c' e : Counter} {n : Nat} {ops : List LineOp} (hphase : c.phase = .load) (hnext : c.next cfg ws = (none, c'))
      (hpos : c'.position cfg = c.position cfg) (rest : Path cfg ws c' n ops e) : Path cfg ws c (n + 1) ops e

variable {cfg : Config} {ws : List WireWord}

theorem Counter.Path.trans {c c' c'' : Counter} {n m : Nat} {a b : List LineOp} (h : Path cfg ws c n a c')
    (k : Path cfg ws c' m b c'') : Path cfg ws c (n + m) (a ++ b) c'' := by
  induction h with
  | stay c => simpa using k
  | attempt hnext hpos _ ih => rw [Nat.succ_add]; exact .attempt hnext hpos (ih k)
  | load hphase hnext hpos _ ih => rw [Nat.succ_add]; exact .load hphase hnext hpos (ih k)

theorem Counter.Path.ops_eq {c e : Counter} {n : Nat} {ops : List LineOp} (h : Path cfg ws c n ops e) :
    Counter.ops cfg ws n c = ops ∧ Counter.run cfg ws n c = e := by
  induction h with
  | stay c => exact ⟨rfl, rfl⟩
  | attempt hnext _ _ ih => simpa only [Counter.ops, Counter.run, hnext, List.cons.injEq, true_and] using ih
  | load _ hnext _ _ ih => simpa only [Counter.ops, Counter.run, hnext] using ih

/-! ### Pulses -/

/-- What follows the PULSE of a phase that makes pulses. -/
def Counter.afterPulse (cfg : Config) (c : Counter) : Counter :=
  match c.phase with
  | .startP => c.afterStartPulse cfg
  | .bitP => c.afterBit cfg
  | _ => c.afterEndPulse cfg

/-- The phases that make pulses. -/
def Phase.MakesPulses (phase : Phase) : Prop := phase = .startP ∨ phase = .bitP ∨ phase = .endP

theorem Counter.next_pulse {c : Counter} (h : c.phase.MakesPulses) :
    c.next cfg ws = c.pulse cfg.delay (c.afterPulse cfg) := by
  unfold Counter.next Counter.afterPulse
  obtain h | h | h := h <;> rw [h]

/-- The same place, at a given micro-step of its PULSE. -/
def Counter.atMicro (c : Counter) (mu : Micro) : Counter := { c with mu := mu }

theorem Counter.atMicro_self {c : Counter} {mu : Micro} (hmu : c.mu = mu) : c.atMicro mu = c := by
  rw [Counter.atMicro, ← hmu]

theorem Counter.position_atMicro {c : Counter} (h : c.phase.MakesPulses) (hmu : c.mu = .c1) (mu : Micro) :
    (c.atMicro mu).position cfg = c.position cfg + mu.index := by
  unfold Counter.position Counter.atMicro
  obtain h | h | h := h <;> rw [h, hmu] <;> rfl

theorem Counter.next_atMicro {c : Counter} (h : c.phase.MakesPulses) {mu mu' : Micro} (hmu : mu.next = some mu') :
    (c.atMicro mu).next cfg ws = (some (mu.op cfg.delay), c.atMicro mu') := by
  rw [Counter.next_pulse (c := c.atMicro mu) h, Counter.pulse, Counter.atMicro]
  simp only [hmu]
  rfl

/-- What follows a PULSE does not depend on the micro-step it follows. -/
theorem Counter.afterPulse_atMicro (c : Counter) (mu : Micro) :
    (c.atMicro mu).afterPulse cfg = (c.afterPulse cfg).atMicro mu := by
  have hite (p : Prop) [Decidable p] (a b : Counter) := apply_ite (Counter.atMicro · mu) p a b
  have hstart : (c.atMicro mu).afterStartPulse cfg = (c.afterStartPulse cfg).atMicro mu := by
    simp only [Counter.afterStartPulse, hite]; rfl
  have hbit : (c.atMicro mu).afterBit cfg = (c.afterBit cfg).atMicro mu := by
    simp only [Counter.afterBit, hite]; rfl
  have hend : (c.atMicro mu).afterEndPulse cfg = (c.afterEndPulse cfg).atMicro mu := by
    simp only [Counter.afterEndPulse, hite]; rfl
  unfold Counter.afterPulse
  rw [show (c.atMicro mu).phase = c.phase from rfl]
  split
  · exact hstart
  · exact hbit
  · exact hend

theorem Counter.next_atMicro_w2 {c : Counter} (h : c.phase.MakesPulses) (hmu : c.mu = .c1) :
    (c.atMicro .w2).next cfg ws = (some (.wait cfg.delay), c.afterPulse cfg) := by
  have hafter := Counter.afterPulse_atMicro (cfg := cfg) c .c1
  rw [Counter.atMicro_self hmu] at hafter
  rw [Counter.next_pulse (c := c.atMicro .w2) h, Counter.pulse, Counter.afterPulse_atMicro, hafter]
  rfl

/-- A PULSE from its first micro-step (42_transmitter R162). -/
theorem Counter.path_pulse {c : Counter} (h : c.phase.MakesPulses) (hmu : c.mu = .c1)
    (hpos : (c.afterPulse cfg).position cfg = c.position cfg + 4) :
    Path cfg ws c 4 (pulseOps cfg.delay) (c.afterPulse cfg) := by
  have hat := Counter.position_atMicro (cfg := cfg) h hmu
  have hc := Counter.atMicro_self hmu
  have hlast : Path cfg ws (c.atMicro .w2) 1 [.wait cfg.delay] (c.afterPulse cfg) :=
    .attempt (Counter.next_atMicro_w2 h hmu) (by rw [hpos, hat]; rfl) (.stay _)
  rw [← hc]
  refine .attempt (Counter.next_atMicro h rfl) ?_ (.attempt (Counter.next_atMicro h rfl) ?_
    (.attempt (Counter.next_atMicro h rfl) ?_ (hc.symm ▸ hlast)))
  all_goals rw [hat, hat]; rfl

/-! ### The start frame and the end frame -/

/-- The pulses of the frame that a phase sends (00_scope R8, R9). -/
def Phase.framePulses (cfg : Config) : Phase → Nat
  | .startP => cfg.startPulses
  | _ => cfg.endPulses

theorem Counter.afterPulse_of_lt {c : Counter} (h : c.phase = .startP ∨ c.phase = .endP)
    (hk : c.k + 1 < c.phase.framePulses cfg) : c.afterPulse cfg = { c with k := c.k + 1 } := by
  obtain ⟨phase, k, p, j, sr, i, mu⟩ := c
  obtain rfl | rfl : phase = .startP ∨ phase = .endP := h
  · exact if_neg hk.ne
  · exact if_neg hk.ne

/-- A PULSE of a frame, its last one too, moves the position by four operations (42_transmitter R175). -/
theorem Counter.position_afterFramePulse {c : Counter} (h : c.phase = .startP ∨ c.phase = .endP) (hmu : c.mu = .c1) :
    (c.afterPulse cfg).position cfg = c.position cfg + 4 := by
  obtain ⟨phase, k, p, j, sr, i, mu⟩ := c
  obtain rfl : mu = .c1 := hmu
  obtain rfl | rfl : phase = .startP ∨ phase = .endP := h
  · change (Counter.afterStartPulse cfg _).position cfg = _
    simp only [Counter.afterStartPulse]
    split_ifs <;> simp only [Counter.position, Micro.index] <;> omega
  · change (Counter.afterEndPulse cfg _).position cfg = _
    simp only [Counter.afterEndPulse]
    split_ifs <;> simp only [Counter.position, Micro.index] <;> omega

/-- Pulses of a frame but for its last: k counts them. -/
theorem Counter.path_pulses {c : Counter} (h : c.phase = .startP ∨ c.phase = .endP) (hmu : c.mu = .c1) {n : Nat}
    (hn : c.k + n < c.phase.framePulses cfg) :
    Path cfg ws c (4 * n) (pulsesOps cfg.delay n) { c with k := c.k + n } := by
  induction n generalizing c with
  | zero => exact .stay c
  | succ n ih =>
    have hfirst := Counter.path_pulse (cfg := cfg) (ws := ws) (h.imp_right .inr) hmu
      (Counter.position_afterFramePulse h hmu)
    rw [Counter.afterPulse_of_lt h (by omega)] at hfirst
    have hrest := ih (c := { c with k := c.k + 1 }) h hmu (by dsimp only; omega)
    rw [pulsesOps, show 4 * (n + 1) = 4 + 4 * n by omega, show c.k + (n + 1) = c.k + 1 + n by omega]
    exact hfirst.trans hrest

theorem pulsesOps_succ (d n : Nat) : pulsesOps d (n + 1) = pulsesOps d n ++ pulseOps d := by
  induction n with
  | zero => rfl
  | succ n ih => exact (congrArg (pulseOps d ++ ·) ih).trans (List.append_assoc ..).symm

/-- All pulses of a frame, up to what follows its last. -/
theorem Counter.path_framePulses {c : Counter} (h : c.phase = .startP ∨ c.phase = .endP) (hmu : c.mu = .c1) (hk : c.k = 0)
    {n : Nat} (hn : c.phase.framePulses cfg = n + 1) :
    Path cfg ws c (4 * (n + 1)) (pulsesOps cfg.delay (n + 1)) (Counter.afterPulse cfg { c with k := n }) := by
  have hpulses := Counter.path_pulses (cfg := cfg) (ws := ws) h hmu (n := n) (by omega)
  rw [hk, Nat.zero_add] at hpulses
  rw [pulsesOps_succ]
  exact hpulses.trans (Counter.path_pulse (h.imp_right .inr) hmu (Counter.position_afterFramePulse h hmu))

/-- The start frame ends at the LOAD of byte 0 of slot 0 (42_transmitter R163). -/
theorem Counter.path_startFrame (hlit : cfg.SourceLiterals) :
    Path cfg ws .start 129 (startOps cfg) ⟨.load, 32, 0, 0, 0#8, 0, .c1⟩ := by
  have hafter : Counter.afterPulse cfg ⟨.startP, 31, 0, 0, 0#8, 0, .c1⟩ = ⟨.load, 32, 0, 0, 0#8, 0, .c1⟩ :=
    if_pos hlit.startPulses.symm
  rw [startOps, hlit.startPulses, ← hafter]
  exact .attempt rfl rfl (Counter.path_framePulses (n := 31) (.inl rfl) rfl rfl hlit.startPulses)

/-- The end frame ends at DONE (42_transmitter R167). -/
theorem Counter.path_endFrame (hlit : cfg.SourceLiterals) (k p j : Nat) (sr : Byte) (i : Nat) :
    Path cfg ws ⟨.endD, k, p, j, sr, i, .c1⟩ 145 (endOps cfg) ⟨.done, 36, p, j, sr, i, .c1⟩ := by
  have hafter : Counter.afterPulse cfg ⟨.endP, 35, p, j, sr, i, .c1⟩ = ⟨.done, 36, p, j, sr, i, .c1⟩ :=
    if_pos hlit.endPulses.symm
  rw [endOps, hlit.endPulses, ← hafter]
  exact .attempt rfl rfl (Counter.path_framePulses (n := 35) (.inr rfl) rfl rfl hlit.endPulses)

/-! ### The words -/

/-- The bits that leave the shift register in `n` shifts (42_transmitter R180). -/
def shiftedBits : Nat → Byte → List Bool
  | 0, _ => []
  | n + 1, sr => sr.getLsbD 7 :: shiftedBits n ((sr <<< 1) &&& 0xFF#8)

theorem shiftedBits_eight (b : Byte) : shiftedBits 8 b = bitsOfByte b := by
  simp [shiftedBits, bitsOfByte]

/-- After a bit the form stands at the next one, at the next byte, at the next slot's first byte or at the end frame. -/
theorem Counter.position_afterBit {k p j i : Nat} (sr : Byte) (hp : p < cfg.nPixels) (hj : j ≤ 3) (hi : i < 8) :
    (Counter.afterBit cfg ⟨.bitP, k, p, j, sr, i + 1, .c1⟩).position cfg =
      Counter.position cfg ⟨.bitP, k, p, j, sr, i + 1, .c1⟩ + 4 := by
  simp only [Counter.afterBit, Nat.add_sub_cancel]
  split_ifs <;> simp only [Counter.position, Micro.index] <;> omega

/-- A bit cell with i + 1 bits left (42_transmitter R164). -/
theorem Counter.path_bit {k p j i : Nat} (sr : Byte) (hp : p < cfg.nPixels) (hj : j ≤ 3) (hi : i < 8) :
    Path cfg ws ⟨.bitD, k, p, j, sr, i + 1, .c1⟩ 5 (bitOps cfg.delay (sr.getLsbD 7))
      (Counter.afterBit cfg ⟨.bitP, k, p, j, sr, i + 1, .c1⟩) :=
  .attempt rfl rfl (Counter.path_pulse (c := ⟨.bitP, k, p, j, sr, i + 1, .c1⟩) (.inr (.inl rfl)) rfl
    (Counter.position_afterBit sr hp hj hi))

/-- The bits left of a byte, up to what follows its last (42_transmitter R165). -/
theorem Counter.path_bits {k p j i : Nat} (sr : Byte) (hp : p < cfg.nPixels) (hj : j ≤ 3) (hi : i < 8) :
    ∃ sr', Path cfg ws ⟨.bitD, k, p, j, sr, i + 1, .c1⟩ (5 * (i + 1))
      ((shiftedBits (i + 1) sr).flatMap (bitOps cfg.delay))
      (Counter.afterBit cfg ⟨.bitP, k, p, j, sr', 1, .c1⟩) := by
  induction i generalizing sr with
  | zero => exact ⟨sr, by simpa [shiftedBits] using Counter.path_bit sr hp hj hi⟩
  | succ i ih =>
    obtain ⟨sr', hrest⟩ := ih ((sr <<< 1) &&& 0xFF#8) (by omega)
    have hafter : Counter.afterBit cfg ⟨.bitP, k, p, j, sr, i + 1 + 1, .c1⟩ =
        ⟨.bitD, k, p, j, (sr <<< 1) &&& 0xFF#8, i + 1, .c1⟩ := by simp [Counter.afterBit]
    have hbit := Counter.path_bit (ws := ws) (k := k) sr hp hj hi
    rw [hafter] at hbit
    rw [shiftedBits, List.flatMap_cons, show 5 * (i + 1 + 1) = 5 + 5 * (i + 1) by omega]
    exact ⟨sr', hbit.trans hrest⟩

/-- LOAD and the byte it loads (42_transmitter R165, R180). -/
theorem Counter.path_byte {p j : Nat} {w : WireWord} (hw : ws[p]? = some w) (hp : p < cfg.nPixels) (hj : j ≤ 3) (k : Nat)
    (sr : Byte) (i : Nat) :
    ∃ sr', Path cfg ws ⟨.load, k, p, j, sr, i, .c1⟩ 41 (byteOps cfg.delay (wireByte w j))
      (Counter.afterBit cfg ⟨.bitP, k, p, j, sr', 1, .c1⟩) := by
  have hnext : Counter.next cfg ws ⟨.load, k, p, j, sr, i, .c1⟩ =
      (none, ⟨.bitD, k, p, j, wireByte w j, 8, .c1⟩) := by
    simp only [Counter.next, loadByte, hw]
  obtain ⟨sr', hbits⟩ := Counter.path_bits (ws := ws) (k := k) (i := 7) (wireByte w j) hp hj (by decide)
  rw [shiftedBits_eight] at hbits
  exact ⟨sr', .load rfl hnext rfl hbits⟩

/-- The four bytes of slot p (42_transmitter R166). -/
theorem Counter.path_word {p : Nat} {w : WireWord} (hw : ws[p]? = some w) (hp : p < cfg.nPixels) (k : Nat) (sr : Byte)
    (i : Nat) : ∃ sr', Path cfg ws ⟨.load, k, p, 0, sr, i, .c1⟩ 164 (wordOps cfg.delay w)
      (Counter.afterBit cfg ⟨.bitP, k, p, 3, sr', 1, .c1⟩) := by
  obtain ⟨sr₀, h₀⟩ := Counter.path_byte (j := 0) hw hp (by decide) k sr i
  obtain ⟨sr₁, h₁⟩ := Counter.path_byte (j := 1) hw hp (by decide) k ((sr₀ <<< 1) &&& 0xFF#8) 0
  obtain ⟨sr₂, h₂⟩ := Counter.path_byte (j := 2) hw hp (by decide) k ((sr₁ <<< 1) &&& 0xFF#8) 0
  obtain ⟨sr₃, h₃⟩ := Counter.path_byte (j := 3) hw hp (by decide) k ((sr₂ <<< 1) &&& 0xFF#8) 0
  exact ⟨sr₃, ((h₀.trans h₁).trans h₂).trans h₃⟩

/-- The words from slot p on, up to the end frame (42_transmitter R168). -/
theorem Counter.path_words {p : Nat} {w : WireWord} {rest : List WireWord} (hws : ws.drop p = w :: rest)
    (hp : p + rest.length + 1 = cfg.nPixels) (k : Nat) (sr : Byte) (i : Nat) :
    ∃ sr', Path cfg ws ⟨.load, k, p, 0, sr, i, .c1⟩ (164 * (rest.length + 1)) ((w :: rest).flatMap (wordOps cfg.delay))
      ⟨.endD, k, p + rest.length, 3, sr', 0, .c1⟩ := by
  have hget {p : Nat} {w : WireWord} {rest : List WireWord} (hws : ws.drop p = w :: rest) : ws[p]? = some w := by
    rw [← List.head?_drop, hws, List.head?_cons]
  induction rest generalizing p w sr i with
  | nil =>
    obtain ⟨sr', hword⟩ := Counter.path_word (cfg := cfg) (hget hws) (by omega) k sr i
    have hafter : Counter.afterBit cfg ⟨.bitP, k, p, 3, sr', 1, .c1⟩ =
        ⟨.endD, k, p, 3, (sr' <<< 1) &&& 0xFF#8, 0, .c1⟩ := by
      simp [Counter.afterBit, show ¬p < cfg.nPixels - 1 by simp only [List.length_nil] at hp; omega]
    rw [hafter] at hword
    exact ⟨_, by simpa using hword⟩
  | cons w' rest ih =>
    obtain ⟨sr', hword⟩ := Counter.path_word (cfg := cfg) (hget hws) (by omega) k sr i
    have hafter : Counter.afterBit cfg ⟨.bitP, k, p, 3, sr', 1, .c1⟩ =
        ⟨.load, k, p + 1, 0, (sr' <<< 1) &&& 0xFF#8, 0, .c1⟩ := by
      simp [Counter.afterBit, show p < cfg.nPixels - 1 by rw [List.length_cons] at hp; omega]
    rw [hafter] at hword
    have hnext : ws.drop (p + 1) = w' :: rest := by rw [← List.tail_drop, hws]; rfl
    obtain ⟨sr'', hrest⟩ := ih hnext (by rw [List.length_cons] at hp; omega) ((sr' <<< 1) &&& 0xFF#8) 0
    rw [List.flatMap_cons, List.length_cons, show 164 * (rest.length + 1 + 1) = 164 + 164 * (rest.length + 1) by omega,
      show p + (rest.length + 1) = p + 1 + rest.length by omega]
    exact ⟨sr'', hword.trans hrest⟩

/-- The form sends a whole display in its 1554 operations and 32 LOADs, and then stands at DONE (42_transmitter R180). -/
theorem Counter.path_display (hlit : cfg.SourceLiterals) (hws : ws.length = 8) :
    ∃ e, e.phase = .done ∧ Path cfg ws .start 1586 (displayOps cfg ws) e := by
  obtain ⟨w, rest, rfl⟩ := List.exists_cons_of_length_eq_add_one hws
  have hrest : rest.length = 7 := by simpa using hws
  obtain ⟨sr, hwords⟩ := Counter.path_words (p := 0) List.drop_zero (by rw [hlit.nPixels, hrest]) 32 0#8 0
  have hend := Counter.path_endFrame (ws := w :: rest) hlit 32 (0 + rest.length) 3 sr 0
  rw [hrest] at hwords hend
  exact ⟨_, rfl, ((Counter.path_startFrame hlit).trans hwords).trans hend⟩

/-! ### A block run by the form against one run by the machine -/

theorem State.setTx_setTx (s : State) (tx tx' : Tx) : (s.setTx tx).setTx tx' = s.setTx tx' := rfl

theorem State.lineWrite_setTx (s : State) (tx : Tx) (line : Line) (v : Bool) :
    (s.setTx tx).lineWrite line v = (s.lineWrite line v).setTx tx := by
  cases line <;> rfl

theorem State.advance_setTx (s : State) (tx : Tx) : s.advance.setTx tx = s.setTx tx := by
  unfold State.advance
  split <;> rfl

/-- The form's step does to a block what the machine's does, but for the position, which the registers stand for. -/
theorem Counter.step_attempt {s : State} {seq : List LineOp} {pc : Nat} {o : Origin} {c c' : Counter} {op : LineOp}
    (ht : s.tx = .busy seq pc o) (hnext : c.next s.cfg ws = (some op, c')) (hpos : c.position s.cfg = pc) (tx : Tx) :
    Counter.step ws (s.setTx tx) c =
      (if s.opSucceeds op then ((s.performOp op).setTx tx, c') else (s.performOp op, c')) := by
  cases op with
  | wait d =>
    simp only [Counter.step, State.setTx_cfg, hnext, State.opSucceeds, if_true, State.performOp_wait, State.advance_setTx]
    rfl
  | write line v =>
    have hans : (s.setTx tx).nextAnswer = s.nextAnswer := rfl
    simp only [Counter.step, State.setTx_cfg, hnext, hans, State.opSucceeds, State.lineWrite_setTx]
    obtain h | h := Bool.eq_false_or_eq_true s.nextAnswer
    · simp only [h, if_true, State.performOp_write_ok line v h, State.advance_setTx]
    · have habort : s.performOp (.write line v) = (s.lineWrite line v).abortAt pc line := by
        rw [State.performOp_write_fail line v h, State.abortDisplay, State.lineWrite_tx, ht]
      simp only [h, Bool.false_eq_true, if_false, habort, hpos]
      rfl

theorem Counter.runBlock_idle {u : State} (h : u.tx = .idle) (n : Nat) (c : Counter) : Counter.runBlock ws n u c = u := by
  cases n with
  | zero => rfl
  | succ n => rw [Counter.runBlock, h]

theorem Counter.runBlock_busy {u : State} {seq : List LineOp} {pc : Nat} {o : Origin} (h : u.tx = .busy seq pc o) (n : Nat)
    (c : Counter) :
    Counter.runBlock ws (n + 1) u c = Counter.runBlock ws n (Counter.step ws u c).1 (Counter.step ws u c).2 := by
  rw [Counter.runBlock, h]

/-- A block that runs the operations of a path from its position on ends as a block that the form runs along the path. -/
theorem Counter.Path.runBlock_eq {c e : Counter} {n : Nat} {ops : List LineOp} (h : Path cfg ws c n ops e)
    (he : e.phase = .done) {s : State} {before : List LineOp} {o o' : Origin} {seq : List LineOp} {pc : Nat}
    (hcfg : s.cfg = cfg) (hl : s.life = .live) (hg : s.grain = .op) (ht : s.tx = .busy (before ++ ops) before.length o)
    (hpos : c.position cfg = before.length) :
    ∃ m t, m ≤ ops.length + 1 ∧ runFor m s = .next t ∧ t.tx = .idle ∧
      Counter.runBlock ws (n + 1) (s.setTx (.busy seq pc o')) c = t := by
  induction h generalizing s before with
  | stay c =>
    rw [List.append_nil] at ht
    refine ⟨1, s.completeDisplay, le_rfl, by rw [runFor_succ, step_busy_end ht]; rfl, rfl, ?_⟩
    rw [Counter.runBlock_busy rfl, Counter.runBlock, Counter.step, Counter.next, he]
    rfl
  | load hphase hnext hpos' _ ih =>
    obtain ⟨m, t, hm, hrun, htx, hblock⟩ := ih he hcfg hl hg ht (hpos'.trans hpos)
    refine ⟨m, t, hm, hrun, htx, ?_⟩
    rw [Counter.runBlock_busy rfl, ← hblock, Counter.step, State.setTx_cfg, hcfg, hnext]
    simp only [hphase]
  | @attempt c c' e n op ops hnext hpos' _ ih =>
    have hop : (before ++ op :: ops)[before.length]? = some op := by simp
    have hstep := step_busy_op hl hg ht hop
    have htx := State.performOp_tx op ht
    have hform := Counter.step_attempt (c' := c') ht (hcfg ▸ hnext) (hcfg ▸ hpos) (.busy seq pc o')
    rw [Counter.runBlock_busy rfl, hform]
    cases hok : s.opSucceeds op with
    | false =>
      rw [hok, if_neg Bool.false_ne_true] at htx
      refine ⟨1, s.performOp op, by simp, by rw [runFor_succ, hstep]; rfl, htx, ?_⟩
      rw [if_neg Bool.false_ne_true]
      exact Counter.runBlock_idle htx _ _
    | true =>
      rw [hok, if_pos rfl] at htx
      have hblock := s.performOp_sameBlock op
      obtain ⟨m, t, hm, hrun, hidle, hend⟩ := ih he (before := before ++ [op]) (hblock.cfg.trans hcfg)
        (hblock.life.trans hl) (hblock.grain.trans hg) (by rw [htx]; simp) (by rw [hpos', hpos]; simp)
      rw [if_pos rfl]
      exact ⟨m + 1, t, Nat.succ_le_succ hm, by rw [runFor_succ, hstep]; exact hrun, hidle, hend⟩

/-- Settles O59: the form's path of a display is SEQ, and along it a block ends as the machine's does. -/
theorem counterFormAttemptsSequence : Obligations.CounterFormAttemptsSequence := by
  unfold Obligations.CounterFormAttemptsSequence
  refine ⟨fun cfg ws hlit hws => ?_, fun s ws origin hlit hws hl hg ht => ?_⟩
  · obtain ⟨e, he, hpath⟩ := Counter.path_display hlit hws
    obtain ⟨hops, hrun⟩ := hpath.ops_eq
    exact ⟨hops, hrun ▸ he⟩
  · obtain ⟨hlen, -⟩ := sequenceCounts s.cfg ws hlit hws
    obtain ⟨e, he, hpath⟩ := Counter.path_display hlit hws
    obtain ⟨n, t, hn, hrun, hidle, hblock⟩ := hpath.runBlock_eq he (before := []) rfl hl hg ht rfl
    rw [hlen] at hn
    refine ⟨n, t, hn, hrun, hidle, ?_⟩
    rw [← hblock, State.setTx, ← ht]

end Sys2Proof.Machine
end

section
/-! The exceptions (60_exceptions R200 to R209): which commands respond Ok or IllegalCommand, when a command is refused or
held, and the abort as a run of steps. -/

namespace Sys2Proof.Machine

/-! ### The result code of a command -/

theorem Response.bytes_head (r : Response) : r.bytes.head? = some r.code.byte := rfl

/-- Settles O10: each of the four responds, on a block as SET leaves it or as it is, with a response of code OK. -/
theorem queriesAndSetReportOk : Obligations.QueriesAndSetReportOk := by
  unfold Obligations.QueriesAndSetReportOk
  intro i s hi hl ht
  have hok {r : Response} {u : State} (hcode : r.code = .ok) (hexec : exec i s = whenReady s (u.respond r)) :
      ∃ t r, exec i s = .next t ∧ t.resp = some r ∧ r.code = .ok ∧ r.bytes.head? = some 0x00#8 :=
    ⟨_, r, hexec.trans (whenReady_ready _ hl ht), u.respond_resp r, hcode, by rw [r.bytes_head, hcode]; rfl⟩
  obtain ⟨index, pixel, rfl⟩ | rfl | rfl | ⟨pixel, rfl⟩ := hi
  all_goals exact hok rfl rfl

/-- Settles O6: a reserved opcode alone is the code of RESERVED_CMD, a command that only responds. -/
theorem reservedOpcodeRespondsIllegal : Obligations.ReservedOpcodeRespondsIllegal := by
  unfold Obligations.ReservedOpcodeRespondsIllegal
  refine ⟨fun cfg opcode h => ?_, fun opcode s hl ht => whenReady_ready _ hl ht, rfl⟩
  have hwf : (Instr.reservedCmd opcode).wf cfg = true := by simpa [Instr.wf, reservedOpcode] using h
  exact decode_codeOf hwf

/-! ### Commands that are not accepted -/

/-- Every command of the port waits for a LIVE, IDLE block (10_state R28, R30). -/
theorem exec_command_whenReady {i : Instr} (s : State) (hc : i.isCommand = true) :
    ∃ next, exec i s = whenReady s next := by
  cases i with
  | set index pixel | clearAll | display | size | snapshot | encode pixel | reservedCmd opcode => exact ⟨_, rfl⟩
  | ledFrame level blue green red | startFrame | endFrame | setData v | setClk v | wait d => cases hc

/-- Settles O9: a command is refused or held as `whenReady` says, and a running display keeps the inbox. -/
theorem commandsHeldWhileBusyRefusedWhenNotLive : Obligations.CommandsHeldWhileBusyRefusedWhenNotLive := by
  unfold Obligations.CommandsHeldWhileBusyRefusedWhenNotLive
  refine ⟨fun i s hc hl => ?_, fun i s hc hl hb => ?_, fun s t hb h => (busyStepKeepsBuffer s t hb h).inbox⟩
  · obtain ⟨next, hexec⟩ := exec_command_whenReady s hc
    exact hexec.trans (whenReady_refused next hl)
  · obtain ⟨next, hexec⟩ := exec_command_whenReady s hc
    exact hexec.trans (whenReady_held next hl hb)

/-! ### The abort -/

/-- Settles O43: `op` steps perform the operations before the failing LineWrite, which all succeed, and the next step is
the abort at `op`. -/
theorem abortIsPrecise : Obligations.AbortIsPrecise := by
  unfold Obligations.AbortIsPrecise
  rintro s seq op n origin line v hl hg ht hop rfl hok hfail
  have hlen : (seq.take op).length = op := by
    obtain ⟨hlt, -⟩ := List.getElem?_eq_some_iff.mp hop
    exact List.length_take_of_le hlt.le
  have hrun := runFor_performOps_ok (pc := 0) hl hg ht (List.take_prefix op seq) hok
  have hdone := State.performOps_ok (seq.take op) s seq 0 origin ht hok
  have hblock := s.performOps_sameBlock (seq.take op)
  have hnext : (s.performOps (seq.take op)).nextAnswer = false := by
    rw [← State.answerAt_zero, State.answerAt_drop (s := s) (by rw [hdone]) (by rw [hdone])]
    exact hfail
  rw [hlen] at hrun hdone
  have htx : (s.performOps (seq.take op)).tx = .busy seq op origin := by rw [hdone, Nat.zero_add]
  have hstep := step_busy_op (hblock.life.trans hl) (hblock.grain.trans hg) htx hop
  refine ⟨(s.performOps (seq.take op)).performOp (.write line v), ?_, ?_⟩
  · rw [runFor_add 1 hrun, runFor_succ, hstep]
    rfl
  · rw [State.performOp_write_fail_busy line v htx hnext, hdone]
    exact ⟨rfl, rfl, rfl, by cases line <;> rfl, rfl, rfl, ⟨rfl, rfl, rfl, rfl, rfl⟩⟩

end Sys2Proof.Machine
end

section
/-! The lifecycle steps of an IDLE block (70_reset_and_hazards R230 to R232): waiting, CONSTRUCT_DRIVER and TEARDOWN, each the
host's move for its next item. -/

namespace Sys2Proof.Machine

/-- Settles O30: an IDLE block's move is the host's, and a host that presents nothing leaves the block as it is. -/
theorem idleBlockWaits : Obligations.IdleBlockWaits := by
  unfold Obligations.IdleBlockWaits
  exact fun s ht hin => step_of_other ((nextMove_idle ht).trans (hostMove_of_nil hin))

/-! ### CONSTRUCT_DRIVER -/

theorem step_construct {s : State} {cfg : Config} {clkAcquired dataAcquired : Bool} {initBuf : List Pixel}
    {rest : List HostItem} (ht : s.tx = .idle) (hin : s.inbox = .construct cfg clkAcquired dataAcquired initBuf :: rest) :
    step s = constructDriver cfg clkAcquired dataAcquired initBuf (s.setInbox rest) :=
  step_of_other (by simp only [nextMove_idle ht, hostMove, hin])

theorem constructDriver_absent {s : State} (cfg : Config) (clkAcquired dataAcquired : Bool) (initBuf : List Pixel)
    (hl : s.life = .absent) : constructDriver cfg clkAcquired dataAcquired initBuf s =
      if clkAcquired = true ∧ dataAcquired = true then .next (s.build cfg initBuf)
      else .next (s.deliver .lineAcquireFailed) := by
  simp only [constructDriver, hl, Bool.and_eq_true]

theorem constructDriver_refused {s : State} (cfg : Config) (clkAcquired dataAcquired : Bool) (initBuf : List Pixel)
    (hl : s.life ≠ .absent) : constructDriver cfg clkAcquired dataAcquired initBuf s = .refused .notAbsent := by
  cases h : s.life with
  | absent => exact absurd h hl
  | live | released => simp only [constructDriver, h]

/-- Settles O31: the step is `constructDriver`, by life and by whether both lines are acquired. -/
theorem constructDriverMakesLiveBlockOrNone : Obligations.ConstructDriverMakesLiveBlockOrNone := by
  unfold Obligations.ConstructDriverMakesLiveBlockOrNone
  intro s cfg clkAcquired dataAcquired initBuf rest ht hin
  rw [step_construct ht hin]
  have habsent := constructDriver_absent (s := s.setInbox rest) cfg clkAcquired dataAcquired initBuf
  exact ⟨fun hl hboth => (habsent hl).trans (if_pos hboth), fun hl hfail => (habsent hl).trans (if_neg hfail),
    fun hl => constructDriver_refused _ _ _ _ hl⟩

/-! ### TEARDOWN -/

theorem step_teardown {s : State} {rest : List HostItem} (ht : s.tx = .idle) (hin : s.inbox = .teardown :: rest) :
    step s = teardown (s.setInbox rest) :=
  step_of_other (by simp only [nextMove_idle ht, hostMove, hin])

/-- Settles O32: TEARDOWN waits for a LIVE, IDLE block as every command does, and the block it leaves is not LIVE. -/
theorem teardownReleasesOnce : Obligations.TeardownReleasesOnce := by
  unfold Obligations.TeardownReleasesOnce
  intro s rest ht hin
  rw [step_teardown ht hin]
  refine ⟨fun hl => ⟨whenReady_ready _ hl ht, fun i hc => ?_⟩, fun hl => whenReady_refused _ hl⟩
  obtain ⟨next, hexec⟩ := exec_command_whenReady { s with life := .released, inbox := rest } hc
  exact hexec.trans (whenReady_refused next nofun)

end Sys2Proof.Machine
end

section
/-! Every display ends (70_reset_and_hazards R241): each step of it performs one operation of those left or ends it. -/

namespace Sys2Proof.Machine

/-- How a display that stands at `pc` may answer: Ok, or LineWriteFailed at an operation from `pc` on. -/
def DisplayAnswer (seq : List LineOp) (pc : Nat) (resp : Option Response) : Prop :=
  resp = some .done ∨ ∃ op line, pc ≤ op ∧ op < seq.length ∧ resp = some (.lineWriteFailed op line)

theorem DisplayAnswer.of_succ {seq : List LineOp} {pc : Nat} {resp : Option Response}
    (h : DisplayAnswer seq (pc + 1) resp) : DisplayAnswer seq pc resp :=
  h.imp_right fun ⟨op, line, hpc, hop⟩ => ⟨op, line, Nat.le_of_succ_le hpc, hop⟩

/-- With `left` operations left a display ends within `left + 1` steps. -/
theorem runFor_display_ends {s : State} {seq : List LineOp} {pc left : Nat} {origin : Origin} (hl : s.life = .live)
    (hg : s.grain = .op) (ht : s.tx = .busy seq pc origin) (hleft : pc + left = seq.length) :
    ∃ n t, n ≤ left + 1 ∧ runFor n s = .next t ∧ t.tx = .idle ∧ DisplayAnswer seq pc t.resp := by
  induction left generalizing s pc with
  | zero =>
    obtain rfl : pc = seq.length := hleft
    exact ⟨1, s.completeDisplay, le_rfl, by rw [runFor_succ, step_busy_end ht]; rfl, rfl, .inl rfl⟩
  | succ left ih =>
    have hpc : pc < seq.length := by omega
    have hop : seq[pc]? = some seq[pc] := List.getElem?_eq_getElem hpc
    generalize seq[pc] = op at hop
    have hstep := step_busy_op hl hg ht hop
    have htx := State.performOp_tx op ht
    cases hok : s.opSucceeds op with
    | true =>
      rw [hok, if_pos rfl] at htx
      have hblock := s.performOp_sameBlock op
      obtain ⟨n, t, hn, hrun, hidle, hanswer⟩ := ih (hblock.life.trans hl) (hblock.grain.trans hg) htx (by omega)
      exact ⟨n + 1, t, Nat.succ_le_succ hn, by rw [runFor_succ, hstep]; exact hrun, hidle, hanswer.of_succ⟩
    | false =>
      rw [hok, if_neg Bool.false_ne_true] at htx
      refine ⟨1, s.performOp op, by omega, by rw [runFor_succ, hstep]; rfl, htx, ?_⟩
      cases op with
      | wait d => cases hok
      | write line v => exact .inr ⟨pc, line, le_rfl, hpc, State.performOp_fail_resp ht hok⟩

/-- Settles O44: under the invariant a BUSY block is LIVE and pc is within the sequence. -/
theorem everyDisplayEnds : Obligations.EveryDisplayEnds := by
  unfold Obligations.EveryDisplayEnds
  intro s seq pc origin hs ht
  obtain ⟨hl, hpc, -⟩ := (txOk_busy ht).mp hs.tx
  exact runFor_display_ends hl hs.opGrain ht (Nat.add_sub_of_le hpc)

end Sys2Proof.Machine
end

section
/-! The rising edges of the clock line (70_reset_and_hazards R234): from a low line each pulse shows one, and a line that
stands high before START loses the edge of the first pulse. -/

namespace Sys2Proof.Machine

/-- From a low clock line `ops` show a rising edge at each pulse and leave the line low. -/
def RisesAtEachPulse (ops : List LineOp) : Prop :=
  ∀ rest, risingEdges false (ops ++ rest) = pulses ops + risingEdges false rest

theorem RisesAtEachPulse.risingEdges_low {ops : List LineOp} (h : RisesAtEachPulse ops) :
    risingEdges false ops = pulses ops := by
  simpa [risingEdges] using h []

theorem RisesAtEachPulse.nil : RisesAtEachPulse [] := fun _ => (Nat.zero_add _).symm

theorem RisesAtEachPulse.append {a b : List LineOp} (ha : RisesAtEachPulse a) (hb : RisesAtEachPulse b) :
    RisesAtEachPulse (a ++ b) := by
  intro rest
  rw [List.append_assoc, ha, hb, pulses, pulses, pulses, List.countP_append, Nat.add_assoc]

theorem RisesAtEachPulse.flatMap {α : Type} {f : α → List LineOp} (h : ∀ x, RisesAtEachPulse (f x)) (xs : List α) :
    RisesAtEachPulse (xs.flatMap f) := by
  induction xs with
  | nil => exact .nil
  | cons x xs ih => exact (h x).append ih

theorem dataWrite_risesAtEachPulse (v : Bool) : RisesAtEachPulse [.write .data v] :=
  fun rest => (Nat.zero_add (risingEdges false rest)).symm

theorem pulseOps_risesAtEachPulse (d : Nat) : RisesAtEachPulse (pulseOps d) := by
  intro rest
  simp [pulseOps, risingEdges, pulses, isWriteOf]

theorem pulsesOps_risesAtEachPulse (d n : Nat) : RisesAtEachPulse (pulsesOps d n) := by
  induction n with
  | zero => exact .nil
  | succ n ih => exact (pulseOps_risesAtEachPulse d).append ih

theorem startOps_risesAtEachPulse (cfg : Config) : RisesAtEachPulse (startOps cfg) :=
  (dataWrite_risesAtEachPulse false).append (pulsesOps_risesAtEachPulse _ _)

theorem displayOps_risesAtEachPulse (cfg : Config) (ws : List WireWord) : RisesAtEachPulse (displayOps cfg ws) := by
  have hbit (v : Bool) : RisesAtEachPulse (bitOps cfg.delay v) :=
    (dataWrite_risesAtEachPulse v).append (pulseOps_risesAtEachPulse _)
  have hend : RisesAtEachPulse (endOps cfg) :=
    (dataWrite_risesAtEachPulse false).append (pulsesOps_risesAtEachPulse _ _)
  rw [displayOps, words_eq_bitCells]
  exact ((startOps_risesAtEachPulse cfg).append (.flatMap hbit _)).append hend

/-- The first clock write of START drives 1, which is an edge on a low line only. -/
theorem risingEdges_startOps_append {cfg : Config} (hpos : cfg.startPulses ≠ 0) (rest : List LineOp) :
    risingEdges false (startOps cfg ++ rest) = risingEdges true (startOps cfg ++ rest) + 1 := by
  obtain ⟨n, hn⟩ := Nat.exists_eq_succ_of_ne_zero hpos
  simp [startOps, hn, pulsesOps, pulseOps, risingEdges, Nat.add_comm]

theorem startOps_pulses (cfg : Config) : pulses (startOps cfg) = cfg.startPulses := by
  have hframe : pulses (startOps cfg) = (pulsesOps cfg.delay cfg.startPulses).countP (isWriteOf .clock true) := rfl
  rw [hframe, pulsesOps_countP]
  exact Nat.mul_one _

/-- Settles O60: START and a whole display show an edge at each of their 32 and 324 pulses from a low line, and one fewer
from a high line. -/
theorem risingEdgesOfADisplay : Obligations.RisingEdgesOfADisplay := by
  unfold Obligations.RisingEdgesOfADisplay
  intro clk cfg ws hlit hws
  obtain ⟨-, hpulses, -⟩ := sequenceCounts cfg ws hlit hws
  have hstart : risingEdges false (startOps cfg) = 32 := by
    rw [(startOps_risesAtEachPulse cfg).risingEdges_low, startOps_pulses, hlit.startPulses]
  have hdisplay : risingEdges false (displayOps cfg ws) = 324 :=
    (displayOps_risesAtEachPulse cfg ws).risingEdges_low.trans hpulses
  cases clk with
  | false => exact ⟨hstart, hdisplay⟩
  | true =>
    have hpos : cfg.startPulses ≠ 0 := by rw [hlit.startPulses]; decide
    have hstart' := risingEdges_startOps_append hpos []
    have hdisplay' := risingEdges_startOps_append hpos (ws.flatMap (wordOps cfg.delay) ++ endOps cfg)
    rw [List.append_nil, hstart] at hstart'
    rw [← List.append_assoc, ← displayOps, hdisplay] at hdisplay'
    rw [if_pos rfl, if_pos rfl]
    exact ⟨by omega, by omega⟩

end Sys2Proof.Machine
end
